-- ==== Sys2Proof/Word.lean ====
section
/-! DEFINITION. The word types of the SPI (`00_scope.md` R5, R6): one bit vector per width that the spec gives a
register, a bus, an address or an instruction. -/

namespace Sys2Proof

/-- A data word: the IDB, the RAM word, the accumulators, K, L, TR, DR, SR, SI, SO (R5, R6). -/
abbrev Word := BitVec 16

/-- A byte of the parallel port D7 to D0 (R360). -/
abbrev Byte := BitVec 8

/-- An instruction word, D22 to D0 (R120). -/
abbrev InstrWord := BitVec 23

/-- A data ROM word as it stands in the ROM (R28). -/
abbrev RomWord := BitVec 13

/-- An instruction ROM address, the width of PC and of a stack level (R21, R23). -/
abbrev ProgAddr := BitVec 9

/-- A data RAM address, the width of DP (R26). -/
abbrev RamAddr := BitVec 7

/-- A data ROM address, the width of RP (R29). -/
abbrev RomAddr := BitVec 9

end Sys2Proof
end

