-- ==== Sys2Proof/Syntax.lean ====
section
/-! DEFINITION. The instruction set of `30_encoding.md`: the field values of rules R126 to R135 and one constructor of
`Instr` for each of the 67 rows of `spec/opcode_table.json`. The types admit exactly the values the encoding admits, so
there is no ill-formed instruction; what can be ill-formed is a word (see WellFormed). -/

namespace Sys2Proof

/-- P-SELECT, the ALU's P input (R126). -/
inductive PSel where
  | ram | idb | m | n
deriving DecidableEq, Repr

/-- The ALU field (R127). `cmp` is the one's complement (R245). -/
inductive AluFn where
  | nop | or | and | xor | sub | add | sbb | adc | dec | inc | cmp | shr1 | shl1 | shl2 | shl4 | xchg
deriving DecidableEq, Repr

/-- ASL, the accumulator select bit (R128). -/
inductive Asl where
  | accA | accB
deriving DecidableEq, Repr

/-- The DPL field (R129). -/
inductive DplOp where
  | dpnop | dpinc | dpdec | dpclr
deriving DecidableEq, Repr

/-- The RPDCR bit (R131). -/
inductive RpOp where
  | rpnop | rpdec
deriving DecidableEq, Repr

/-- The SRC field (R132). -/
inductive Src where
  | non | a | b | tr | dp | rp | ro | sgn | dr | drnf | sr | sim | sil | k | l | mem
deriving DecidableEq, Repr

/-- The DST field (R133); `non2` is the second code for no register, 1110 (R200). -/
inductive Dst where
  | non | a | b | tr | dp | rp | dr | sr | sol | som | k | klr | klm | l | non2 | mem
deriving DecidableEq, Repr

/-- The CND field (R135). -/
inductive Cond where
  | jnca | jca | jncb | jcb | jnza | jza | jnzb | jzb
  | jnova0 | jova0 | jnovb0 | jovb0 | jnova1 | jova1 | jnovb1 | jovb1
  | jnsa0 | jsa0 | jnsb0 | jsb0 | jnsa1 | jsa1 | jnsb1 | jsb1
  | jdpl0 | jdplf | jnsiak | jsiak | jnsoak | jsoak | jnrqm | jrqm
deriving DecidableEq, Repr

/-- The operand fields an OP or RT word has beside its OP code and its ALU function (R121). -/
structure OpFields where
  psel  : PSel
  asl   : Asl
  dpl   : DplOp
  dphm  : BitVec 3
  rpdcr : RpOp
  src   : Src
  dst   : Dst
deriving DecidableEq, Repr

/-- The instructions: OP and RT by ALU function (R161, R162, R235 to R250), JMP (R281), CALL (R282), the conditional
jumps (R283 to R315) and LDI (R330). -/
inductive Instr where
  | opNop (f : OpFields)
  | opOr (f : OpFields)
  | opAnd (f : OpFields)
  | opXor (f : OpFields)
  | opSub (f : OpFields)
  | opAdd (f : OpFields)
  | opSbb (f : OpFields)
  | opAdc (f : OpFields)
  | opDec (f : OpFields)
  | opInc (f : OpFields)
  | opCmp (f : OpFields)
  | opShr1 (f : OpFields)
  | opShl1 (f : OpFields)
  | opShl2 (f : OpFields)
  | opShl4 (f : OpFields)
  | opXchg (f : OpFields)
  | rtNop (f : OpFields)
  | rtOr (f : OpFields)
  | rtAnd (f : OpFields)
  | rtXor (f : OpFields)
  | rtSub (f : OpFields)
  | rtAdd (f : OpFields)
  | rtSbb (f : OpFields)
  | rtAdc (f : OpFields)
  | rtDec (f : OpFields)
  | rtInc (f : OpFields)
  | rtCmp (f : OpFields)
  | rtShr1 (f : OpFields)
  | rtShl1 (f : OpFields)
  | rtShl2 (f : OpFields)
  | rtShl4 (f : OpFields)
  | rtXchg (f : OpFields)
  | jmp (na : ProgAddr)
  | call (na : ProgAddr)
  | jnca (na : ProgAddr)
  | jca (na : ProgAddr)
  | jncb (na : ProgAddr)
  | jcb (na : ProgAddr)
  | jnza (na : ProgAddr)
  | jza (na : ProgAddr)
  | jnzb (na : ProgAddr)
  | jzb (na : ProgAddr)
  | jnova0 (na : ProgAddr)
  | jova0 (na : ProgAddr)
  | jnovb0 (na : ProgAddr)
  | jovb0 (na : ProgAddr)
  | jnova1 (na : ProgAddr)
  | jova1 (na : ProgAddr)
  | jnovb1 (na : ProgAddr)
  | jovb1 (na : ProgAddr)
  | jnsa0 (na : ProgAddr)
  | jsa0 (na : ProgAddr)
  | jnsb0 (na : ProgAddr)
  | jsb0 (na : ProgAddr)
  | jnsa1 (na : ProgAddr)
  | jsa1 (na : ProgAddr)
  | jnsb1 (na : ProgAddr)
  | jsb1 (na : ProgAddr)
  | jdpl0 (na : ProgAddr)
  | jdplf (na : ProgAddr)
  | jnsiak (na : ProgAddr)
  | jsiak (na : ProgAddr)
  | jnsoak (na : ProgAddr)
  | jsoak (na : ProgAddr)
  | jnrqm (na : ProgAddr)
  | jrqm (na : ProgAddr)
  | ldi (dst : Dst) (imm : Word)
deriving DecidableEq, Repr

end Sys2Proof
end

