-- ==== Sys2Proof/WellFormed.lean ====
section
/-! DEFINITION. Which words an assembler writes (`30_encoding.md` R137, R138). Every `Instr` is well-formed by its
type; a WORD is well-formed when its BRCH field is one of the three defined codes and every bit the decoder ignores as a
whole field of the format is zero. A decoder accepts any value in the ignored bits (R138), so an ill-formed word is not
an undefined one, but for the undefined BRCH codes. -/

namespace Sys2Proof

/-- The word is a JP word: OP field 10 (R120). -/
def isJpWord (w : InstrWord) : Bool := w.extractLsb' 21 2 == 0b10#2

/-- The word is an LDI word: OP field 11 (R120). -/
def isLdiWord (w : InstrWord) : Bool := w.extractLsb' 21 2 == 0b11#2

/-- BRCH is 100, 101 or 010 (R134, R137). -/
def brchDefined (w : InstrWord) : Bool :=
  w.extractLsb' 18 3 == 0b100#3 || w.extractLsb' 18 3 == 0b101#3 || w.extractLsb' 18 3 == 0b010#3

/-- D3 to D0 of a JP word are zero (R138 (e)). -/
def jpUnusedZero (w : InstrWord) : Bool := w.extractLsb' 0 4 == 0#4

/-- CND is zero in a JMP or CALL (R138 (a)). -/
def jpCondZero (w : InstrWord) : Bool := w.extractLsb' 18 3 == 0b010#3 || w.extractLsb' 13 5 == 0#5

/-- D4 of an LDI word is zero (R138 (e)). -/
def ldiUnusedZero (w : InstrWord) : Bool := w.extractLsb' 4 1 == 0#1

/-- A word as an assembler writes it. -/
def wellFormedWord (w : InstrWord) : Bool :=
  (!isJpWord w || (brchDefined w && jpUnusedZero w && jpCondZero w)) && (!isLdiWord w || ldiUnusedZero w)

end Sys2Proof
end

