-- ==== Sys2Proof/Decode.lean ====
section
/-! DEFINITION. The decoder and the encoder of `30_encoding.md`. The field codes are the spec's Tables 4.1 to 4.10
(R126 to R135), read bit by bit; the formats are R121 (OP/RT), R122 (JP), R123 (LDI). The OP codes of JP and LDI and
the places of NA and ID are the spec's decisions from outside its source (log 16); the unused bits are ignored on
decode and zero on encode (R138, log 17). -/

namespace Sys2Proof

/-- Why a word is no instruction. The only words without a meaning are JP words whose BRCH is 000, 001, 011, 110 or
111 (R137). -/
inductive Reject where
  | undefinedBranch
deriving DecidableEq, Repr

/-- What the decoder answers for a word. -/
inductive Decoded where
  | instr (i : Instr)
  | rejected (r : Reject)
deriving DecidableEq, Repr

/-- The instruction, if there is one. -/
def Decoded.toOption : Decoded → Option Instr
  | .instr i => some i
  | .rejected _ => none

/-! ### Field codes -/

/-- Table 4.1, D20 D19 (R126). -/
def PSel.ofCode (c : BitVec 2) : PSel :=
  match c.getLsbD 1, c.getLsbD 0 with
  | false, false => .ram
  | false, true => .idb
  | true, false => .m
  | true, true => .n

/-- Table 4.2, D18 to D15 (R127). -/
def AluFn.ofCode (c : BitVec 4) : AluFn :=
  match c.getLsbD 3, c.getLsbD 2, c.getLsbD 1, c.getLsbD 0 with
  | false, false, false, false => .nop
  | false, false, false, true => .or
  | false, false, true, false => .and
  | false, false, true, true => .xor
  | false, true, false, false => .sub
  | false, true, false, true => .add
  | false, true, true, false => .sbb
  | false, true, true, true => .adc
  | true, false, false, false => .dec
  | true, false, false, true => .inc
  | true, false, true, false => .cmp
  | true, false, true, true => .shr1
  | true, true, false, false => .shl1
  | true, true, false, true => .shl2
  | true, true, true, false => .shl4
  | true, true, true, true => .xchg

/-- Table 4.3, D14 (R128). -/
def Asl.ofCode (c : BitVec 1) : Asl :=
  match c.getLsbD 0 with
  | false => .accA
  | true => .accB

/-- Table 4.4, D13 D12 (R129). -/
def DplOp.ofCode (c : BitVec 2) : DplOp :=
  match c.getLsbD 1, c.getLsbD 0 with
  | false, false => .dpnop
  | false, true => .dpinc
  | true, false => .dpdec
  | true, true => .dpclr

/-- Table 4.6, D8 (R131). -/
def RpOp.ofCode (c : BitVec 1) : RpOp :=
  match c.getLsbD 0 with
  | false => .rpnop
  | true => .rpdec

/-- Table 4.7, D7 to D4 (R132). -/
def Src.ofCode (c : BitVec 4) : Src :=
  match c.getLsbD 3, c.getLsbD 2, c.getLsbD 1, c.getLsbD 0 with
  | false, false, false, false => .non
  | false, false, false, true => .a
  | false, false, true, false => .b
  | false, false, true, true => .tr
  | false, true, false, false => .dp
  | false, true, false, true => .rp
  | false, true, true, false => .ro
  | false, true, true, true => .sgn
  | true, false, false, false => .dr
  | true, false, false, true => .drnf
  | true, false, true, false => .sr
  | true, false, true, true => .sim
  | true, true, false, false => .sil
  | true, true, false, true => .k
  | true, true, true, false => .l
  | true, true, true, true => .mem

/-- Table 4.8, D3 to D0 (R133). -/
def Dst.ofCode (c : BitVec 4) : Dst :=
  match c.getLsbD 3, c.getLsbD 2, c.getLsbD 1, c.getLsbD 0 with
  | false, false, false, false => .non
  | false, false, false, true => .a
  | false, false, true, false => .b
  | false, false, true, true => .tr
  | false, true, false, false => .dp
  | false, true, false, true => .rp
  | false, true, true, false => .dr
  | false, true, true, true => .sr
  | true, false, false, false => .sol
  | true, false, false, true => .som
  | true, false, true, false => .k
  | true, false, true, true => .klr
  | true, true, false, false => .klm
  | true, true, false, true => .l
  | true, true, true, false => .non2
  | true, true, true, true => .mem

/-- Table 4.10, D17 to D13 (R135). -/
def Cond.ofCode (c : BitVec 5) : Cond :=
  match c.getLsbD 4, c.getLsbD 3, c.getLsbD 2, c.getLsbD 1, c.getLsbD 0 with
  | false, false, false, false, false => .jnca
  | false, false, false, false, true => .jca
  | false, false, false, true, false => .jncb
  | false, false, false, true, true => .jcb
  | false, false, true, false, false => .jnza
  | false, false, true, false, true => .jza
  | false, false, true, true, false => .jnzb
  | false, false, true, true, true => .jzb
  | false, true, false, false, false => .jnova0
  | false, true, false, false, true => .jova0
  | false, true, false, true, false => .jnovb0
  | false, true, false, true, true => .jovb0
  | false, true, true, false, false => .jnova1
  | false, true, true, false, true => .jova1
  | false, true, true, true, false => .jnovb1
  | false, true, true, true, true => .jovb1
  | true, false, false, false, false => .jnsa0
  | true, false, false, false, true => .jsa0
  | true, false, false, true, false => .jnsb0
  | true, false, false, true, true => .jsb0
  | true, false, true, false, false => .jnsa1
  | true, false, true, false, true => .jsa1
  | true, false, true, true, false => .jnsb1
  | true, false, true, true, true => .jsb1
  | true, true, false, false, false => .jdpl0
  | true, true, false, false, true => .jdplf
  | true, true, false, true, false => .jnsiak
  | true, true, false, true, true => .jsiak
  | true, true, true, false, false => .jnsoak
  | true, true, true, false, true => .jsoak
  | true, true, true, true, false => .jnrqm
  | true, true, true, true, true => .jrqm

/-! ### Which row a function or a condition makes -/

/-- The OP row of an ALU function (R161, R235 to R250). -/
def opInstr (fn : AluFn) (f : OpFields) : Instr :=
  match fn with
  | .nop => .opNop f
  | .or => .opOr f
  | .and => .opAnd f
  | .xor => .opXor f
  | .sub => .opSub f
  | .add => .opAdd f
  | .sbb => .opSbb f
  | .adc => .opAdc f
  | .dec => .opDec f
  | .inc => .opInc f
  | .cmp => .opCmp f
  | .shr1 => .opShr1 f
  | .shl1 => .opShl1 f
  | .shl2 => .opShl2 f
  | .shl4 => .opShl4 f
  | .xchg => .opXchg f

/-- The RT row of an ALU function (R162). -/
def rtInstr (fn : AluFn) (f : OpFields) : Instr :=
  match fn with
  | .nop => .rtNop f
  | .or => .rtOr f
  | .and => .rtAnd f
  | .xor => .rtXor f
  | .sub => .rtSub f
  | .add => .rtAdd f
  | .sbb => .rtSbb f
  | .adc => .rtAdc f
  | .dec => .rtDec f
  | .inc => .rtInc f
  | .cmp => .rtCmp f
  | .shr1 => .rtShr1 f
  | .shl1 => .rtShl1 f
  | .shl2 => .rtShl2 f
  | .shl4 => .rtShl4 f
  | .xchg => .rtXchg f

/-- The conditional jump of a condition (R283). -/
def condJump (c : Cond) (na : ProgAddr) : Instr :=
  match c with
  | .jnca => .jnca na
  | .jca => .jca na
  | .jncb => .jncb na
  | .jcb => .jcb na
  | .jnza => .jnza na
  | .jza => .jza na
  | .jnzb => .jnzb na
  | .jzb => .jzb na
  | .jnova0 => .jnova0 na
  | .jova0 => .jova0 na
  | .jnovb0 => .jnovb0 na
  | .jovb0 => .jovb0 na
  | .jnova1 => .jnova1 na
  | .jova1 => .jova1 na
  | .jnovb1 => .jnovb1 na
  | .jovb1 => .jovb1 na
  | .jnsa0 => .jnsa0 na
  | .jsa0 => .jsa0 na
  | .jnsb0 => .jnsb0 na
  | .jsb0 => .jsb0 na
  | .jnsa1 => .jnsa1 na
  | .jsa1 => .jsa1 na
  | .jnsb1 => .jnsb1 na
  | .jsb1 => .jsb1 na
  | .jdpl0 => .jdpl0 na
  | .jdplf => .jdplf na
  | .jnsiak => .jnsiak na
  | .jsiak => .jsiak na
  | .jnsoak => .jnsoak na
  | .jsoak => .jsoak na
  | .jnrqm => .jnrqm na
  | .jrqm => .jrqm na

/-! ### Decode -/

/-- The seven operand fields of an OP/RT word (R121). -/
def opFields (w : InstrWord) : OpFields where
  psel  := PSel.ofCode (w.extractLsb' 19 2)
  asl   := Asl.ofCode (w.extractLsb' 14 1)
  dpl   := DplOp.ofCode (w.extractLsb' 12 2)
  dphm  := w.extractLsb' 9 3
  rpdcr := RpOp.ofCode (w.extractLsb' 8 1)
  src   := Src.ofCode (w.extractLsb' 4 4)
  dst   := Dst.ofCode (w.extractLsb' 0 4)

/-- The ALU function of an OP/RT word, D18 to D15 (R121). -/
def aluField (w : InstrWord) : AluFn := AluFn.ofCode (w.extractLsb' 15 4)

/-- The NA field of a JP word, D12 to D4 (R122, R125). -/
def naField (w : InstrWord) : ProgAddr := w.extractLsb' 4 9

/-- A JP word by its BRCH field (R134, R136): 100 JMP, 101 CALL, 010 conditional, the other five rejected (R137). -/
def decodeJp (w : InstrWord) : Decoded :=
  match w.getLsbD 20, w.getLsbD 19, w.getLsbD 18 with
  | true, false, false => .instr (.jmp (naField w))
  | true, false, true => .instr (.call (naField w))
  | false, true, false => .instr (condJump (Cond.ofCode (w.extractLsb' 13 5)) (naField w))
  | false, false, false => .rejected .undefinedBranch
  | false, false, true => .rejected .undefinedBranch
  | false, true, true => .rejected .undefinedBranch
  | true, true, false => .rejected .undefinedBranch
  | true, true, true => .rejected .undefinedBranch

/-- Any 23-bit word, by its OP field D22 D21 (R120, R136). -/
def decode (w : InstrWord) : Decoded :=
  match w.getLsbD 22, w.getLsbD 21 with
  | false, false => .instr (opInstr (aluField w) (opFields w))
  | false, true => .instr (rtInstr (aluField w) (opFields w))
  | true, false => decodeJp w
  | true, true => .instr (.ldi (Dst.ofCode (w.extractLsb' 0 4)) (w.extractLsb' 5 16))

/-- The instruction the decoder reads from a row of the opcode table whose bits are `w`: the bits above `nbits` are
zero, and a number that does not fit the 23 bits of a word is no word (R120). No byte order exists (R94). -/
def decodeTableWord (nbits w : Nat) : Option Instr :=
  let v := w % 2 ^ nbits
  if v < 2 ^ 23 then (decode (BitVec.ofNat 23 v)).toOption else none

/-! ### Encode -/

/-- Table 4.1, D20 D19 (R126). -/
def PSel.code : PSel → BitVec 2
  | .ram => 0b00#2
  | .idb => 0b01#2
  | .m => 0b10#2
  | .n => 0b11#2

/-- Table 4.2, D18 to D15 (R127). -/
def AluFn.code : AluFn → BitVec 4
  | .nop => 0b0000#4
  | .or => 0b0001#4
  | .and => 0b0010#4
  | .xor => 0b0011#4
  | .sub => 0b0100#4
  | .add => 0b0101#4
  | .sbb => 0b0110#4
  | .adc => 0b0111#4
  | .dec => 0b1000#4
  | .inc => 0b1001#4
  | .cmp => 0b1010#4
  | .shr1 => 0b1011#4
  | .shl1 => 0b1100#4
  | .shl2 => 0b1101#4
  | .shl4 => 0b1110#4
  | .xchg => 0b1111#4

/-- Table 4.3, D14 (R128). -/
def Asl.code : Asl → BitVec 1
  | .accA => 0b0#1
  | .accB => 0b1#1

/-- Table 4.4, D13 D12 (R129). -/
def DplOp.code : DplOp → BitVec 2
  | .dpnop => 0b00#2
  | .dpinc => 0b01#2
  | .dpdec => 0b10#2
  | .dpclr => 0b11#2

/-- Table 4.6, D8 (R131). -/
def RpOp.code : RpOp → BitVec 1
  | .rpnop => 0b0#1
  | .rpdec => 0b1#1

/-- Table 4.7, D7 to D4 (R132). -/
def Src.code : Src → BitVec 4
  | .non => 0b0000#4
  | .a => 0b0001#4
  | .b => 0b0010#4
  | .tr => 0b0011#4
  | .dp => 0b0100#4
  | .rp => 0b0101#4
  | .ro => 0b0110#4
  | .sgn => 0b0111#4
  | .dr => 0b1000#4
  | .drnf => 0b1001#4
  | .sr => 0b1010#4
  | .sim => 0b1011#4
  | .sil => 0b1100#4
  | .k => 0b1101#4
  | .l => 0b1110#4
  | .mem => 0b1111#4

/-- Table 4.8, D3 to D0 (R133). -/
def Dst.code : Dst → BitVec 4
  | .non => 0b0000#4
  | .a => 0b0001#4
  | .b => 0b0010#4
  | .tr => 0b0011#4
  | .dp => 0b0100#4
  | .rp => 0b0101#4
  | .dr => 0b0110#4
  | .sr => 0b0111#4
  | .sol => 0b1000#4
  | .som => 0b1001#4
  | .k => 0b1010#4
  | .klr => 0b1011#4
  | .klm => 0b1100#4
  | .l => 0b1101#4
  | .non2 => 0b1110#4
  | .mem => 0b1111#4

/-- Table 4.10, D17 to D13 (R135). -/
def Cond.code : Cond → BitVec 5
  | .jnca => 0b00000#5
  | .jca => 0b00001#5
  | .jncb => 0b00010#5
  | .jcb => 0b00011#5
  | .jnza => 0b00100#5
  | .jza => 0b00101#5
  | .jnzb => 0b00110#5
  | .jzb => 0b00111#5
  | .jnova0 => 0b01000#5
  | .jova0 => 0b01001#5
  | .jnovb0 => 0b01010#5
  | .jovb0 => 0b01011#5
  | .jnova1 => 0b01100#5
  | .jova1 => 0b01101#5
  | .jnovb1 => 0b01110#5
  | .jovb1 => 0b01111#5
  | .jnsa0 => 0b10000#5
  | .jsa0 => 0b10001#5
  | .jnsb0 => 0b10010#5
  | .jsb0 => 0b10011#5
  | .jnsa1 => 0b10100#5
  | .jsa1 => 0b10101#5
  | .jnsb1 => 0b10110#5
  | .jsb1 => 0b10111#5
  | .jdpl0 => 0b11000#5
  | .jdplf => 0b11001#5
  | .jnsiak => 0b11010#5
  | .jsiak => 0b11011#5
  | .jnsoak => 0b11100#5
  | .jsoak => 0b11101#5
  | .jnrqm => 0b11110#5
  | .jrqm => 0b11111#5

/-- An OP/RT word, D22 first (R121). -/
def encodeOpRt (op : BitVec 2) (fn : AluFn) (f : OpFields) : InstrWord :=
  op ++ f.psel.code ++ fn.code ++ f.asl.code ++ f.dpl.code ++ f.dphm ++ f.rpdcr.code ++ f.src.code ++ f.dst.code

/-- A JP word, D22 first, the unused bits zero (R122). -/
def encodeJp (brch : BitVec 3) (cnd : BitVec 5) (na : ProgAddr) : InstrWord :=
  0b10#2 ++ brch ++ cnd ++ na ++ 0#4

/-- An LDI word, D22 first, the unused bit zero (R123). -/
def encodeLdi (dst : Dst) (imm : Word) : InstrWord :=
  0b11#2 ++ imm ++ 0#1 ++ dst.code

/-- The word of an instruction (R121 to R123). -/
def encode : Instr → InstrWord
  | .opNop f => encodeOpRt 0b00#2 .nop f
  | .opOr f => encodeOpRt 0b00#2 .or f
  | .opAnd f => encodeOpRt 0b00#2 .and f
  | .opXor f => encodeOpRt 0b00#2 .xor f
  | .opSub f => encodeOpRt 0b00#2 .sub f
  | .opAdd f => encodeOpRt 0b00#2 .add f
  | .opSbb f => encodeOpRt 0b00#2 .sbb f
  | .opAdc f => encodeOpRt 0b00#2 .adc f
  | .opDec f => encodeOpRt 0b00#2 .dec f
  | .opInc f => encodeOpRt 0b00#2 .inc f
  | .opCmp f => encodeOpRt 0b00#2 .cmp f
  | .opShr1 f => encodeOpRt 0b00#2 .shr1 f
  | .opShl1 f => encodeOpRt 0b00#2 .shl1 f
  | .opShl2 f => encodeOpRt 0b00#2 .shl2 f
  | .opShl4 f => encodeOpRt 0b00#2 .shl4 f
  | .opXchg f => encodeOpRt 0b00#2 .xchg f
  | .rtNop f => encodeOpRt 0b01#2 .nop f
  | .rtOr f => encodeOpRt 0b01#2 .or f
  | .rtAnd f => encodeOpRt 0b01#2 .and f
  | .rtXor f => encodeOpRt 0b01#2 .xor f
  | .rtSub f => encodeOpRt 0b01#2 .sub f
  | .rtAdd f => encodeOpRt 0b01#2 .add f
  | .rtSbb f => encodeOpRt 0b01#2 .sbb f
  | .rtAdc f => encodeOpRt 0b01#2 .adc f
  | .rtDec f => encodeOpRt 0b01#2 .dec f
  | .rtInc f => encodeOpRt 0b01#2 .inc f
  | .rtCmp f => encodeOpRt 0b01#2 .cmp f
  | .rtShr1 f => encodeOpRt 0b01#2 .shr1 f
  | .rtShl1 f => encodeOpRt 0b01#2 .shl1 f
  | .rtShl2 f => encodeOpRt 0b01#2 .shl2 f
  | .rtShl4 f => encodeOpRt 0b01#2 .shl4 f
  | .rtXchg f => encodeOpRt 0b01#2 .xchg f
  | .jmp na => encodeJp 0b100#3 0#5 na
  | .call na => encodeJp 0b101#3 0#5 na
  | .jnca na => encodeJp 0b010#3 Cond.jnca.code na
  | .jca na => encodeJp 0b010#3 Cond.jca.code na
  | .jncb na => encodeJp 0b010#3 Cond.jncb.code na
  | .jcb na => encodeJp 0b010#3 Cond.jcb.code na
  | .jnza na => encodeJp 0b010#3 Cond.jnza.code na
  | .jza na => encodeJp 0b010#3 Cond.jza.code na
  | .jnzb na => encodeJp 0b010#3 Cond.jnzb.code na
  | .jzb na => encodeJp 0b010#3 Cond.jzb.code na
  | .jnova0 na => encodeJp 0b010#3 Cond.jnova0.code na
  | .jova0 na => encodeJp 0b010#3 Cond.jova0.code na
  | .jnovb0 na => encodeJp 0b010#3 Cond.jnovb0.code na
  | .jovb0 na => encodeJp 0b010#3 Cond.jovb0.code na
  | .jnova1 na => encodeJp 0b010#3 Cond.jnova1.code na
  | .jova1 na => encodeJp 0b010#3 Cond.jova1.code na
  | .jnovb1 na => encodeJp 0b010#3 Cond.jnovb1.code na
  | .jovb1 na => encodeJp 0b010#3 Cond.jovb1.code na
  | .jnsa0 na => encodeJp 0b010#3 Cond.jnsa0.code na
  | .jsa0 na => encodeJp 0b010#3 Cond.jsa0.code na
  | .jnsb0 na => encodeJp 0b010#3 Cond.jnsb0.code na
  | .jsb0 na => encodeJp 0b010#3 Cond.jsb0.code na
  | .jnsa1 na => encodeJp 0b010#3 Cond.jnsa1.code na
  | .jsa1 na => encodeJp 0b010#3 Cond.jsa1.code na
  | .jnsb1 na => encodeJp 0b010#3 Cond.jnsb1.code na
  | .jsb1 na => encodeJp 0b010#3 Cond.jsb1.code na
  | .jdpl0 na => encodeJp 0b010#3 Cond.jdpl0.code na
  | .jdplf na => encodeJp 0b010#3 Cond.jdplf.code na
  | .jnsiak na => encodeJp 0b010#3 Cond.jnsiak.code na
  | .jsiak na => encodeJp 0b010#3 Cond.jsiak.code na
  | .jnsoak na => encodeJp 0b010#3 Cond.jnsoak.code na
  | .jsoak na => encodeJp 0b010#3 Cond.jsoak.code na
  | .jnrqm na => encodeJp 0b010#3 Cond.jnrqm.code na
  | .jrqm na => encodeJp 0b010#3 Cond.jrqm.code na
  | .ldi dst imm => encodeLdi dst imm

end Sys2Proof
end

