-- ==== Sys2Proof/Config.lean ====
section
/-! DEFINITION. What an implementation fixes and the values the spec leaves free. Every free value (`any_N` of
`00_scope.md` R9) and every open parameter is a constant WITHOUT a body: no proof can know it. A value that is fresh
at each use is indexed by the draw counter `State.draws` (log 7). -/

namespace Sys2Proof

/-- The two parts the spec describes (R1). -/
inductive Part where
  | upd7720A
  | upd77P20
deriving DecidableEq, Repr, Inhabited

/-- The word registers that an RST leaves unlisted, each with a free value of its own (R71, R421, log 24). -/
inductive UnlistedReg where
  | accA
  | accB
  | tr
  | k
  | l
  | dr
  | si
  | sisr
  | so
  | sosr
deriving DecidableEq, Repr

namespace Config

/-- Which part this machine is: it decides `DROM_RESERVED` only (R5, R28). Open (log 10). -/
opaque part : Part

/-- `any_16`: what the IDB carries when SRC = NON (R170, log 8). -/
opaque floatingBus : Nat → Word

/-- `any_1`: S1 after a logical or shift function (R251, log 9). -/
opaque indefiniteS1 : Nat → Bool

/-- `any_13`: a reserved data ROM word of the uPD7720A, read onto the IDB (R28, R176, log 10). -/
opaque testPatternOnIdb : Nat → RomWord

/-- `any_13`: a reserved data ROM word of the uPD7720A, read into L over the ROM bus (R28, R197, log 10). -/
opaque testPatternOnL : Nat → RomWord

/-- The open parameter `SIL8`: what SRC = SIL delivers in 8-bit mode, of the byte in SI (R5, R182, log 11). -/
opaque sil8 : Byte → Word

/-- `any_16` in a word register after an RST, of the draw and of what the register held (R71, D16, log 24). -/
opaque wordAfterReset : UnlistedReg → Nat → Word → Word

/-- `any_7`: DP after an RST (R71, D16, log 24). -/
opaque dpAfterReset : Nat → RamAddr → RamAddr

/-- `any_9`: RP after an RST (R71, D16, log 24). -/
opaque rpAfterReset : Nat → RomAddr → RomAddr

/-- `any_16` in each RAM word after an RST, of the draw, the address and what the word was (R71, D16, log 24). -/
opaque ramAfterReset : Nat → Nat → Word → Word

/-- `any_1`: SIACK after an RST (R71, D34, log 24). -/
opaque siackAfterReset : Nat → Bool → Bool

/-- `any_1`: SOACK after an RST (R71, D34, log 24). -/
opaque soackAfterReset : Nat → Bool → Bool

/-- Reset entry address (R5, R422). -/
def resetEntry : ProgAddr := 0x000#9

/-- Interrupt entry address 100H (R5, R345, R351). -/
def interruptEntry : ProgAddr := 0x100#9

/-- Levels of the return stack (R23). -/
def stackDepth : Nat := 4

/-- Words of the instruction ROM, the data ROM and the data RAM (R5, R90). -/
def iromSize : Nat := 512
def dromSize : Nat := 512
def ramSize : Nat := 128

end Config
end Sys2Proof
end

