-- ==== Sys2Proof/Machine/State.lean ====
section
/-! DEFINITION. The state of the SPI as plain data (`10_state.md`), the reasons a step can stop, and the machine right
after reset (R70, R71). The last fields are the model's own: the draw counter, the order of moves of the agents, and
what the port rules need to recognise the cases that the spec puts outside the model's guarantee. -/

namespace Sys2Proof.Machine

/-- A memory: (address, word) pairs in canonical form (`Memory.wf` in Ops). The unit is the spec's own: one word of the
memory, since no memory of the SPI is byte-addressable (`20_memory.md` R94, log 1). -/
abbrev Memory (w : Nat) := List (Nat × BitVec w)

/-- The six flags of one accumulator (R36). -/
structure Flags where
  s1  : Bool
  s0  : Bool
  c   : Bool
  z   : Bool
  ov1 : Bool
  ov0 : Bool
deriving DecidableEq, Repr

/-- The levels of the parallel port's control pins in one bus cycle and what the host drives on D7 to D0
(`60_exceptions.md` R360, R361): `true` is high. -/
structure BusCycle where
  cs   : Bool
  a0   : Bool
  wr   : Bool
  rd   : Bool
  dack : Bool
  data : Byte
deriving DecidableEq, Repr

/-- Which way a host transfer with DR goes (R363, R364). -/
inductive XferDir where
  | hostWrites
  | hostReads
deriving DecidableEq, Repr

/-- One move of one agent (`00_scope.md` R12, `20_memory.md` R103). -/
inductive Turn where
  /-- The core: one instruction or one interrupt entry (R160, R345). -/
  | core
  /-- A rising edge on INT (R343). -/
  | intRise
  /-- A falling edge on INT (R343). -/
  | intFall
  /-- A reset pulse on RST (R420). -/
  | rst
  /-- One bus cycle of the host on the parallel port (R361). -/
  | bus (c : BusCycle)
  /-- A rising edge of SCK, the one clock of both ports, with the levels of SIEN/ and SI (R375, R376, R386). -/
  | sckRise (sien : Bool) (si : Bool)
  /-- A falling edge of SCK (R386, R388). -/
  | sckFall
  /-- SOEN/ takes a level: `true` is high (R383, R388). -/
  | soen (level : Bool)
  /-- The transfer from SO to the output shift register (R385). -/
  | soLoad
deriving DecidableEq, Repr

/-- Everything the spec gives the machine, and after it the model's own fields. -/
structure State where
  /-- IROM, the program (R20): never written by a step. -/
  irom       : Memory 23
  /-- PC (R21): the address of the instruction to execute. -/
  pc         : ProgAddr
  /-- STACK, most recent return address first (R23, R24). -/
  stk        : List ProgAddr
  /-- RAM (R25). -/
  ram        : Memory 16
  /-- DP (R26). -/
  dp         : RamAddr
  /-- DROM, the coefficients (R28): never written by a step. -/
  drom       : Memory 13
  /-- RP (R29). -/
  rp         : RomAddr
  /-- K, a multiplier input (R32). -/
  k          : Word
  /-- L, a multiplier input (R33). -/
  l          : Word
  /-- ACCA (R35). -/
  accA       : Word
  /-- ACCB (R35). -/
  accB       : Word
  /-- FLAGA (R36). -/
  flagA      : Flags
  /-- FLAGB (R36). -/
  flagB      : Flags
  /-- TR (R44). -/
  tr         : Word
  /-- SR, the status register (R45). -/
  sr         : Word
  /-- DR, the data register of the parallel port (R57). -/
  dr         : Word
  /-- SI, the serial input register (R58). -/
  si         : Word
  /-- SISR, the input shift register (R58). -/
  sisr       : Word
  /-- SICNT, bits shifted in so far (R58). -/
  sicnt      : Nat
  /-- SIACK (R59). -/
  siack      : Bool
  /-- SO, the serial output register, in sending order (R60, R384). -/
  so         : Word
  /-- SOSR, the output shift register (R60). -/
  sosr       : Word
  /-- SOCNT, bits sent so far (R60). -/
  socnt      : Nat
  /-- SOSR_BUSY (R60). -/
  sosrBusy   : Bool
  /-- SOACK (R61). -/
  soack      : Bool
  /-- SORQ, pin 23 (R62). -/
  sorq       : Bool
  /-- SO_PIN, pin 22 (R386, R388). -/
  soPin      : Bool
  /-- SOEN/, pin 20: the level the outside device drives, `true` high (R383, R386, R388, log 38). -/
  soenLevel  : Bool
  /-- DRQ, pin 3 (R63). -/
  drq        : Bool
  /-- INT_LEVEL, the level last seen on INT (R64). -/
  intLevel   : Bool
  /-- INT_PENDING, an accepted edge not yet acted on (R64). -/
  intPending : Bool
  /-- MODEL: the index of the next free value (log 7). -/
  draws      : Nat
  /-- MODEL: whose move each next step is; when empty, the core's (log 5). -/
  turns      : List Turn
  /-- MODEL: what the SPI drove on D7 to D0 in the last bus cycle; none is high impedance (R361, log 27). -/
  dBus       : Option Byte
  /-- MODEL: the direction of a 16-bit host transfer whose first byte is done (R368, log 36). -/
  xferDir    : Option XferDir
  /-- MODEL: DRC or DMA was changed while DRS = 1 (R368, log 36). -/
  xferSpoilt : Bool
  /-- MODEL: SIC was changed while SICNT was not 0 (R379, log 36). -/
  siSpoilt   : Bool
  /-- MODEL: SOC was changed while the shift register held a word (R390, log 36). -/
  soSpoilt   : Bool
  /-- MODEL: the SO pin carries the last bit of a finished word, until the rising SCK edge (R386, R388, log 30). -/
  soLastBit  : Bool
deriving DecidableEq, Repr

/-- The faults of the model: `60_exceptions.md` R341 gives the complete list. The chip does something in these cases
and the spec does not say what, so each is SAFE: no claim about what follows can be proved. -/
inductive Fault where
  /-- An RT when the stack list is empty (R24, R162, R341). Raised by the return of the RT instructions. Safe. -/
  | stackUnderflow
  /-- A JP word whose BRCH is 000, 001, 011, 110 or 111 (R137, R317, R341). Raised by the core's step. Safe. -/
  | undefinedBranch
deriving DecidableEq, Repr

/-- The refusals. But for `notModelled`, each is an action of an OUTSIDE agent that the spec keeps out of the model's
guarantee (`60_exceptions.md` R368, R379, R390; `93_implementation_defined.md` U3, U16) or that is not enabled in the
state it meets. All are SAFE: the run stops where the chip would go on. -/
inductive Refusal where
  /-- An instruction without a meaning in this model, by its mnemonic. Raised by exec's arms only; no arm uses it. -/
  | notModelled (mnemonic : String)
  /-- A bus cycle that Table 3.1 marks PROHIBITED (R361, R368). Raised by the host's turn. Safe. -/
  | prohibitedBusCycle
  /-- A DACK/ transfer while DMA = 0 (R368). Raised by the host's turn. Safe. -/
  | dackOutsideDma
  /-- A 16-bit transfer whose first byte was a read and whose second is a write, or the reverse (R368). Raised by the
  host's turn. Safe. -/
  | mixedTransfer
  /-- A transfer with DR after the program changed DRC or DMA while DRS was 1 (R368). Raised by the host's turn. Safe. -/
  | transferModeChanged
  /-- A serial input bit after the program changed SIC in the middle of a word (R379). Raised by the serial input's
  turn. Safe. -/
  | serialInputModeChanged
  /-- A serial output bit after the program changed SOC in the middle of a word (R390). Raised by the serial output's
  turn. Safe. -/
  | serialOutputModeChanged
  /-- A turn that is not enabled: INT rising while it is high, falling while it is low (R343), or `so_load` without a
  waiting word or with the shift register busy (R385). Raised by those turns. Safe. -/
  | turnNotEnabled
deriving DecidableEq, Repr

/-- All six flags zero, as reset leaves them (R36, R70). -/
def Flags.zero : Flags := ⟨false, false, false, false, false, false⟩

/-- The machine right after reset. PC, the flags, SR, DRQ, SORQ, the bit counts, INT_PENDING, SOSR_BUSY and the empty
stack are R70's; the SO pin is high by R422; the levels of INT and SOEN/ are the outside devices' (logs 4, 38); every
value R71 leaves unknown is the model's DESIGN CHOICE of zero (logs 2, 3). No program and no coefficients are placed (log
6). -/
def State.reset : State where
  irom       := []
  pc         := Config.resetEntry
  stk        := []
  ram        := []
  dp         := 0#7
  drom       := []
  rp         := 0#9
  k          := 0#16
  l          := 0#16
  accA       := 0#16
  accB       := 0#16
  flagA      := Flags.zero
  flagB      := Flags.zero
  tr         := 0#16
  sr         := 0#16
  dr         := 0#16
  si         := 0#16
  sisr       := 0#16
  sicnt      := 0
  siack      := false
  so         := 0#16
  sosr       := 0#16
  socnt      := 0
  sosrBusy   := false
  soack      := false
  sorq       := false
  soPin      := true
  soenLevel  := true
  drq        := false
  intLevel   := false
  intPending := false
  draws      := 0
  turns      := []
  dBus       := none
  xferDir    := none
  xferSpoilt := false
  siSpoilt   := false
  soSpoilt   := false
  soLastBit  := false

end Sys2Proof.Machine
end

