-- ==== Sys2Proof/Machine/Ops.lean ====
section
/-! DEFINITION. The named operations over memories and registers, the stack, the status register's fields, the
multiplier, taking the interrupt and returning from it. Everything an instruction or an agent does to State goes through
these. -/

namespace Sys2Proof.Machine

/-! ### Memories (`20_memory.md` R90 to R100) -/

/-- What an address that is not listed reads as, in each of the three memories: DESIGN CHOICE zero (log 2). -/
def Memory.unlisted (w : Nat) : BitVec w := 0#w

/-- The word at an address. The list is rising, so the search stops at the first larger address. -/
def Memory.read {w : Nat} : Memory w → Nat → BitVec w
  | [], _ => Memory.unlisted w
  | (b, v) :: m, a => if a < b then Memory.unlisted w else if a = b then v else Memory.read m a

/-- `m[a] <- v`. Writing what an unlisted address reads as removes the entry, so equal memories are equal lists. -/
def Memory.write {w : Nat} : Memory w → Nat → BitVec w → Memory w
  | [], a, v => if v = Memory.unlisted w then [] else [(a, v)]
  | (b, u) :: m, a, v =>
    if a < b then (if v = Memory.unlisted w then (b, u) :: m else (a, v) :: (b, u) :: m)
    else if a = b then (if v = Memory.unlisted w then m else (a, v) :: m)
    else (b, u) :: Memory.write m a v

/-- Each of the first `n` words replaced by `f` of its address and of what it was. -/
def Memory.rewrite {w : Nat} (f : Nat → BitVec w → BitVec w) : Nat → Memory w → Memory w
  | 0, m => m
  | n + 1, m => Memory.write (Memory.rewrite f n m) n (f n (Memory.read m n))

/-- The canonical form: addresses strictly rising and inside the memory, and no entry that an unlisted address
would read as. -/
abbrev Memory.wf {w : Nat} (size : Nat) (m : Memory w) : Prop :=
  m.Pairwise (fun x y => x.1 < y.1) ∧ ∀ c ∈ m, c.1 < size ∧ c.2 ≠ Memory.unlisted w

/-- `RAM[a]` (R9). -/
def State.ramWord (s : State) (a : RamAddr) : Word := Memory.read s.ram a.toNat

/-- `RAM[a] <- v` (R9). -/
def State.setRamWord (s : State) (a : RamAddr) (v : Word) : State :=
  { s with ram := Memory.write s.ram a.toNat v }

/-- RAM after an RST: each word a free value of its address and of what it was (R71, D16, log 24). Irreducible: the lemma
`State.ramAfterRst_read` says what it holds, and no proof need unroll the 128 words. -/
@[irreducible] def State.ramAfterRst (s : State) : Memory 16 :=
  Memory.rewrite (Config.ramAfterReset s.draws) Config.ramSize s.ram

/-- `{1, DP[5:0]}`: the high-block word that the dedicated bus to K reads (R92, R198). -/
def highRamAddr (dp : RamAddr) : RamAddr := 1#1 ++ dp.extractLsb' 0 6

/-- `IROM[PC]`: the word the core fetches (R91). -/
def State.fetch (s : State) : InstrWord := Memory.read s.irom s.pc.toNat

/-- `DROM_RESERVED`: data ROM addresses 0 and 1 on the uPD7720A, none on the uPD77P20 (R5, R28). -/
def dromReserved (a : RomAddr) : Bool := (a == 0#9 || a == 1#9) && Config.part == Part.upd7720A

/-- The two ways the data ROM's output leaves: onto the IDB (SRC = RO), or over its own bus to L (DST = @KLR), R31. -/
inductive RomPort where
  | idb
  | lBus
deriving DecidableEq, Repr

/-- `DROM[RP]` as the instruction reads it: a free value at a reserved address (R28, log 10). -/
def State.dromWord (s : State) (p : RomPort) : RomWord :=
  if dromReserved s.rp then
    match p with
    | .idb => Config.testPatternOnIdb s.draws
    | .lBus => Config.testPatternOnL s.draws
  else Memory.read s.drom s.rp.toNat

/-- `RO = {DROM[RP], 000}` (R31). -/
def State.ro (s : State) (p : RomPort) : Word := s.dromWord p ++ 0#3

/-! ### Bit order -/

/-- `bitrev16` (R9): bit i of the result is bit 15 - i of the argument. -/
def bitrev16 (v : Word) : Word := v.reverse

/-! ### The status register (`10_state.md` R45 to R56) -/

/-- SR bit 15, request for master (R46). -/
def State.rqm (s : State) : Bool := s.sr.getLsbD 15
/-- SR bit 14 (R47). -/
def State.usf1 (s : State) : Bool := s.sr.getLsbD 14
/-- SR bit 13 (R47). -/
def State.usf0 (s : State) : Bool := s.sr.getLsbD 13
/-- SR bit 12, data register status (R48). -/
def State.drs (s : State) : Bool := s.sr.getLsbD 12
/-- SR bit 11, DMA mode (R49). -/
def State.dma (s : State) : Bool := s.sr.getLsbD 11
/-- SR bit 10, data register control: 8-bit transfers (R50). -/
def State.drc (s : State) : Bool := s.sr.getLsbD 10
/-- SR bit 9, serial output control: 8-bit words (R51). -/
def State.soc (s : State) : Bool := s.sr.getLsbD 9
/-- SR bit 8, serial input control: 8-bit words (R52). -/
def State.sic (s : State) : Bool := s.sr.getLsbD 8
/-- SR bit 7, enable interrupt (R53). -/
def State.ei (s : State) : Bool := s.sr.getLsbD 7
/-- SR bit 1 and pin 5 (R55, R369). -/
def State.p1 (s : State) : Bool := s.sr.getLsbD 1
/-- SR bit 0 and pin 4 (R55, R369). -/
def State.p0 (s : State) : Bool := s.sr.getLsbD 0

/-- SR bit 15 as a word. -/
def rqmBit : Word := 0x8000#16
/-- SR bit 12 as a word. -/
def drsBit : Word := 0x1000#16
/-- SR bit 7 as a word. -/
def eiBit : Word := 0x0080#16
/-- The SR bits a write by the core reaches: 14, 13, 11 to 7, 1, 0 (R45, R56, R193, R333): nine of the eleven fields
that R96 counts, RQM and DRS being the hardware's (log 37). -/
def srWritable : Word := 0x6F83#16
/-- The SR bits a write by the core leaves: 15, 12, 6 to 2 (R56, R193). -/
def srKept : Word := 0x907C#16

/-- `SR <- (SR & 907CH) | (v & 6F83H)` (R56, R193). The port words in flight are marked when their mode bit changes in
mid-word: SIC while SICNT is not 0, SOC while the shift register is busy, DRC or DMA while DRS = 1 (log 36). -/
def State.writeSr (s : State) (v : Word) : State :=
  { s with
    sr         := (s.sr &&& srKept) ||| (v &&& srWritable)
    siSpoilt   := s.siSpoilt || (s.sicnt != 0 && s.sic != v.getLsbD 8)
    soSpoilt   := s.soSpoilt || (s.sosrBusy && s.soc != v.getLsbD 9)
    xferSpoilt := s.xferSpoilt || (s.drs && (s.drc != v.getLsbD 10 || s.dma != v.getLsbD 11)) }

/-- What a transfer between the IDB and DR does to the handshake: RQM <- 1 if DMA = 0, else DRQ <- 1 (R46, R63,
R178, R192). DMA is read from `start`, the state at the start of the instruction. -/
def State.signalTransfer (start s : State) : State :=
  { s with
    sr  := if start.dma then s.sr else s.sr ||| rqmBit
    drq := if start.dma then true else s.drq }

/-! ### Accumulators and flags (R35, R36) -/

/-- The accumulator ASL names (R168). -/
def State.acc (s : State) : Asl → Word
  | .accA => s.accA
  | .accB => s.accB

/-- The flag register ASL names (R168). -/
def State.flags (s : State) : Asl → Flags
  | .accA => s.flagA
  | .accB => s.flagB

/-- `C_other`: the carry of the accumulator that ASL does not name (R255). -/
def State.carryOther (s : State) : Asl → Bool
  | .accA => s.flagB.c
  | .accB => s.flagA.c

/-- `ACC[a] <- v`. -/
def State.setAcc (s : State) (a : Asl) (v : Word) : State :=
  { s with
    accA := match a with | .accA => v | .accB => s.accA
    accB := match a with | .accA => s.accB | .accB => v }

/-- `FLAG[a] <- fl`. -/
def State.setFlags (s : State) (a : Asl) (fl : Flags) : State :=
  { s with
    flagA := match a with | .accA => fl | .accB => s.flagA
    flagB := match a with | .accA => s.flagB | .accB => fl }

/-- SGN: 7FFFH when SA1 = 1, 8000H when SA1 = 0 (R43, log 20). -/
def State.sgn (s : State) : Word := if s.flagA.s1 then 0x7FFF#16 else 0x8000#16

/-! ### The multiplier (`41_alu_multiplier.md` R230 to R233) -/

/-- `P32 = (signed(K) * signed(L) * 2) mod 2^32` (R231). -/
def product (k l : Word) : BitVec 32 := BitVec.ofInt 32 (k.toInt * l.toInt * 2)

/-- M, the high half of the product of the K and L the instruction starts with (R34, R231, R233). -/
def State.m (s : State) : Word := (product s.k s.l).extractLsb' 16 16

/-- N, the low half (R34, R231, R233). -/
def State.n (s : State) : Word := (product s.k s.l).extractLsb' 0 16

/-! ### Program counter and stack (R21 to R24) -/

/-- `(PC + 1) mod 512` (R21, log 14). -/
def nextPc (pc : ProgAddr) : ProgAddr := pc + 1#9

/-- `pc <- target`. -/
def State.jumpTo (s : State) (target : ProgAddr) : State := { s with pc := target }

/-- `pc <- (PC + 1) mod 512`. -/
def State.advance (s : State) : State := s.jumpTo (nextPc s.pc)

/-- `push(v)`: with four values held the oldest is dropped (R24, log 12). -/
def State.push (s : State) (v : ProgAddr) : State :=
  { s with stk := (v :: s.stk).take Config.stackDepth }

/-! ### The interrupt (`60_exceptions.md` R342 to R351) -/

/-- Taking the interrupt: the PC is pushed (the address of the instruction that would have run next, nothing added,
R346), PC <- 100H, EI <- 0, INT_PENDING <- 0, and nothing else changes (R345, log 22). -/
def State.interruptEntry (s : State) : State :=
  { (s.push s.pc).jumpTo Config.interruptEntry with
    sr         := s.sr &&& ~~~eiBit
    intPending := false }

/-- The return from a subroutine or an interrupt: `pc <- pop()` (R24, R162, R349). EI is not restored. On an empty
stack the spec's model faults (R341, log 12). -/
def State.returnTop (s : State) : Host.Outcome State Fault Refusal :=
  match s.stk with
  | [] => .fault .stackUnderflow
  | v :: rest => .next { s with pc := v, stk := rest }

end Sys2Proof.Machine
end

