-- ==== Sys2Proof/Machine/Flags.lean ====
section
/-! DEFINITION. The flag rules of `41_alu_multiplier.md` R251 to R254, on the flag register of the selected
accumulator. -/

namespace Sys2Proof.Machine

/-- S0: bit 15 of the result (R39). -/
def signFlag (r : Word) : Bool := r.msb

/-- Z: the result is 0000H (R38). -/
def zeroFlag (r : Word) : Bool := r == 0#16

/-- An exact signed result does not fit in 16 bits: the two's complement overflow of one operation (R40, R252). -/
def overflows (x : Int) : Bool := decide (x < -32768 ∨ 32767 < x)

/-- The flags after a logical or shift function: S0 and Z from the result, the carry as the function says, OV0 and
OV1 reset, S1 indeterminate: the free value `anyS1` (R251, log 9). -/
def flagsLogical (r : Word) (carry anyS1 : Bool) : Flags where
  s1  := anyS1
  s0  := signFlag r
  c   := carry
  z   := zeroFlag r
  ov1 := false
  ov0 := false

/-- OV1 after an arithmetic function, from OV1 and S1 before it and OV0', S0' of its result (R253, log 21). -/
def nextOv1 (old : Flags) (ov0 s0 : Bool) : Bool :=
  if !old.ov1 then ov0
  else if !ov0 then true
  else s0 == old.s1

/-- S1 after an arithmetic function: S0' if no overflow was outstanding, else kept (R253, log 21). -/
def nextS1 (old : Flags) (s0 : Bool) : Bool := if !old.ov1 then s0 else old.s1

/-- The flags after an arithmetic function (R252, R253). -/
def flagsArith (old : Flags) (r : Word) (carry ov0 : Bool) : Flags where
  s1  := nextS1 old (signFlag r)
  s0  := signFlag r
  c   := carry
  z   := zeroFlag r
  ov1 := nextOv1 old ov0 (signFlag r)
  ov0 := ov0

end Sys2Proof.Machine
end

