-- ==== Sys2Proof/Machine/Alu.lean ====
section
/-! DEFINITION. The sixteen ALU functions of `41_alu_multiplier.md` (R234 to R250): the result and the flags of the
selected accumulator, from the accumulator q, the P input, the flags before, the other accumulator's carry and the free
bit that S1 takes after a logical or shift function. -/

namespace Sys2Proof.Machine

/-- What an ALU function reads (R234). -/
structure AluIn where
  q      : Word
  p      : Word
  flags  : Flags
  cOther : Bool
  anyS1  : Bool
deriving DecidableEq, Repr

/-- What it writes to the selected accumulator and its flag register (R234). -/
structure AluOut where
  r     : Word
  flags : Flags
deriving DecidableEq, Repr

/-- A carry or borrow as the integer 0 or 1. -/
def carryNat (c : Bool) : Nat := if c then 1 else 0

/-- `q + p + cin`: the sum modulo 2^16, the carry out of bit 15, the overflow of the exact signed sum (R240, R242,
R244, R252). -/
def addWithCarry (x : AluIn) (p : Word) (cin : Bool) : AluOut :=
  let sum := x.q.toNat + p.toNat + carryNat cin
  let r := BitVec.ofNat 16 sum
  ⟨r, flagsArith x.flags r (decide (65535 < sum)) (overflows (x.q.toInt + p.toInt + carryNat cin))⟩

/-- `q - p - bin`: the difference modulo 2^16, the borrow out of bit 15, the overflow of the exact signed difference
(R239, R241, R243, R252). -/
def subWithBorrow (x : AluIn) (p : Word) (bin : Bool) : AluOut :=
  let r := BitVec.ofInt 16 ((x.q.toNat : Int) - p.toNat - carryNat bin)
  ⟨r, flagsArith x.flags r (decide (x.q.toNat < p.toNat + carryNat bin))
    (overflows (x.q.toInt - p.toInt - carryNat bin))⟩

/-- A logical or shift result with its carry (R251). -/
def logical (x : AluIn) (r : Word) (carry : Bool) : AluOut := ⟨r, flagsLogical r carry x.anyS1⟩

/-- NOP: nothing (R235). -/
def aluNop (x : AluIn) : AluOut := ⟨x.q, x.flags⟩
/-- OR (R236). -/
def aluOr (x : AluIn) : AluOut := logical x (x.q ||| x.p) false
/-- AND (R237). -/
def aluAnd (x : AluIn) : AluOut := logical x (x.q &&& x.p) false
/-- XOR (R238). -/
def aluXor (x : AluIn) : AluOut := logical x (x.q ^^^ x.p) false
/-- SUB (R239). -/
def aluSub (x : AluIn) : AluOut := subWithBorrow x x.p false
/-- ADD (R240). -/
def aluAdd (x : AluIn) : AluOut := addWithCarry x x.p false
/-- SBB: the borrow in is the OTHER accumulator's carry (R241, R255). -/
def aluSbb (x : AluIn) : AluOut := subWithBorrow x x.p x.cOther
/-- ADC: the carry in is the OTHER accumulator's carry (R242, R255). -/
def aluAdc (x : AluIn) : AluOut := addWithCarry x x.p x.cOther
/-- DEC (R243). -/
def aluDec (x : AluIn) : AluOut := subWithBorrow x 1#16 false
/-- INC (R244). -/
def aluInc (x : AluIn) : AluOut := addWithCarry x 1#16 false
/-- CMP: one's complement (R245). -/
def aluCmp (x : AluIn) : AluOut := logical x (~~~x.q) false
/-- SHR1: arithmetic right shift, the old bit 0 to the accumulator's own carry (R246). -/
def aluShr1 (x : AluIn) : AluOut :=
  logical x (x.q.extractLsb' 15 1 ++ x.q.extractLsb' 1 15) (x.q.getLsbD 0)
/-- SHL1: the other carry into bit 0, the old bit 15 to the accumulator's own carry (R247). -/
def aluShl1 (x : AluIn) : AluOut :=
  logical x (x.q.extractLsb' 0 15 ++ BitVec.ofBool x.cOther) (x.q.getLsbD 15)
/-- SHL2: two ones shifted in (R248). -/
def aluShl2 (x : AluIn) : AluOut := logical x (x.q.extractLsb' 0 14 ++ 0b11#2) false
/-- SHL4: four ones shifted in (R249). -/
def aluShl4 (x : AluIn) : AluOut := logical x (x.q.extractLsb' 0 12 ++ 0b1111#4) false
/-- XCHG: the two bytes of the accumulator exchanged (R250). -/
def aluXchg (x : AluIn) : AluOut := logical x (x.q.extractLsb' 0 8 ++ x.q.extractLsb' 8 8) false

/-- The ALU (R234). -/
def alu : AluFn → AluIn → AluOut
  | .nop => aluNop
  | .or => aluOr
  | .and => aluAnd
  | .xor => aluXor
  | .sub => aluSub
  | .add => aluAdd
  | .sbb => aluSbb
  | .adc => aluAdc
  | .dec => aluDec
  | .inc => aluInc
  | .cmp => aluCmp
  | .shr1 => aluShr1
  | .shl1 => aluShl1
  | .shl2 => aluShl2
  | .shl4 => aluShl4
  | .xchg => aluXchg

end Sys2Proof.Machine
end

