-- ==== Sys2Proof/Machine/Operands.lean ====
section
/-! DEFINITION. The operand forms of `40_op_rt.md`: the sixteen sources (R170 to R185), the sixteen destinations (R186
to R201), the P input (R163 to R166), the pointer fields (R202 to R209), and how the parts of one OP/RT word combine
(R160, R211). `start` is always the state at the start of the instruction; every read is from it (R160, log 15). -/

namespace Sys2Proof.Machine

/-- SIL: 16-bit mode the word reversed, 8-bit mode the open parameter `SIL8` of the byte (R182, log 11). -/
def silWord (start : State) : Word :=
  if start.sic then Config.sil8 (start.si.extractLsb' 0 8) else bitrev16 start.si

/-- `idb = source(SRC, S)`: what drives the internal data bus. -/
def source (src : Src) (start : State) : Word :=
  match src with
  | .non => Config.floatingBus start.draws          -- R170: any_16 (log 8)
  | .a => start.accA                                -- R171
  | .b => start.accB                                -- R172
  | .tr => start.tr                                 -- R173
  | .dp => start.dp.zeroExtend 16                   -- R174
  | .rp => start.rp.zeroExtend 16                   -- R175
  | .ro => start.ro .idb                            -- R176
  | .sgn => start.sgn                               -- R177
  | .dr => start.dr                                 -- R178
  | .drnf => start.dr                               -- R179
  | .sr => start.sr                                 -- R180
  | .sim => start.si                                -- R181
  | .sil => silWord start                           -- R182
  | .k => start.k                                   -- R183
  | .l => start.l                                   -- R184
  | .mem => start.ramWord start.dp                  -- R185

/-- What reading a source does beside: SRC = DR signals the transfer, SRC = SIM and SIL reset SIACK (R98, R178, R181,
R182); no other source changes anything, DRNF included (R179). -/
def sourceEffect (src : Src) (start s : State) : State :=
  match src with
  | .dr => State.signalTransfer start s
  | .sim => { s with siack := false }
  | .sil => { s with siack := false }
  | .non => s
  | .a => s
  | .b => s
  | .tr => s
  | .dp => s
  | .rp => s
  | .ro => s
  | .sgn => s
  | .drnf => s
  | .sr => s
  | .k => s
  | .l => s
  | .mem => s

/-- `destination(DST, idb, S)`: who latches the IDB, written into `s`. -/
def destination (dst : Dst) (idb : Word) (start s : State) : State :=
  match dst with
  | .non => s                                                                              -- R186
  | .a => { s with accA := idb }                                                           -- R187
  | .b => { s with accB := idb }                                                           -- R188
  | .tr => { s with tr := idb }                                                            -- R189
  | .dp => { s with dp := idb.extractLsb' 0 7 }                                            -- R190
  | .rp => { s with rp := idb.extractLsb' 0 9 }                                            -- R191
  | .dr => State.signalTransfer start { s with dr := idb }                                 -- R192
  | .sr => s.writeSr idb                                                                   -- R193
  | .sol => { s with so := idb, soack := true }                                            -- R194
  | .som => { s with so := bitrev16 idb, soack := true }                                   -- R195
  | .k => { s with k := idb }                                                              -- R196
  | .klr => { s with k := idb, l := start.ro .lBus }                                       -- R197
  | .klm => { s with k := start.ramWord (highRamAddr start.dp), l := idb }                 -- R198
  | .l => { s with l := idb }                                                              -- R199
  | .non2 => s                                                                             -- R200
  | .mem => s.setRamWord start.dp idb                                                      -- R201

/-- The P input (R163 to R166). -/
def pselect (psel : PSel) (idb : Word) (start : State) : Word :=
  match psel with
  | .ram => start.ramWord start.dp
  | .idb => idb
  | .m => start.m
  | .n => start.n

/-- `dpl(DPL, x)`: modulo 16, no carry to or borrow from DPH (R202 to R205). -/
def dplStep (d : DplOp) (x : BitVec 4) : BitVec 4 :=
  match d with
  | .dpnop => x
  | .dpinc => x + 1#4
  | .dpdec => x - 1#4
  | .dpclr => 0#4

/-- `{ DP[6:4] ^ DPHM , dpl(DPL, DP[3:0]) }` (R206, R207). -/
def dpStep (d : DplOp) (mask : BitVec 3) (dp : RamAddr) : RamAddr :=
  (dp.extractLsb' 4 3 ^^^ mask) ++ dplStep d (dp.extractLsb' 0 4)

/-- RPDCR: nothing, or `(RP - 1) mod 512` (R208, R209, log 14). -/
def rpStep (r : RpOp) (rp : RomAddr) : RomAddr :=
  match r with
  | .rpnop => rp
  | .rpdec => rp - 1#9

/-- The pointer fields: ignored for DP when DST = @DP, for RP when DST = @RP (R207, R209). -/
def pointerFields (f : OpFields) (start s : State) : State :=
  { s with
    dp := if f.dst = .dp then s.dp else dpStep f.dpl f.dphm start.dp
    rp := if f.dst = .rp then s.rp else rpStep f.rpdcr start.rp }

/-- The move goes to the accumulator the ALU works on, so the ALU function is forced to NOP (R169). -/
def moveWins (f : OpFields) : Bool :=
  (f.dst == .a && f.asl == .accA) || (f.dst == .b && f.asl == .accB)

/-- `active` of R160: an ALU function that is not NOP and not forced to it. -/
def aluActive (fn : AluFn) (f : OpFields) : Bool := fn != .nop && !moveWins f

/-- The ALU's inputs in an OP/RT instruction, all from its start (R160, R168, R255). -/
def aluInputs (f : OpFields) (start : State) : AluIn where
  q      := start.acc f.asl
  p      := pselect f.psel (source f.src start) start
  flags  := start.flags f.asl
  cOther := start.carryOther f.asl
  anyS1  := Config.indefiniteS1 start.draws

/-- The ALU's writes, if it is active (R160). -/
def aluWrite (fn : AluFn) (f : OpFields) (start s : State) : State :=
  if aluActive fn f then
    (s.setAcc f.asl (alu fn (aluInputs f start)).r).setFlags f.asl (alu fn (aluInputs f start)).flags
  else s

/-- The index of the free values moves on, so that the next instruction's are fresh (log 7). -/
def State.nextDraw (s : State) : State := { s with draws := s.draws + 1 }

/-- Everything one OP/RT word does but for the program counter (R160 steps 1 to 4, R211): the move, the source's side
effect, the ALU, the pointer fields. No two of these writes can meet (R160). -/
def multiOp (fn : AluFn) (f : OpFields) (start : State) : State :=
  let moved := destination f.dst (source f.src start) start start
  let signalled := sourceEffect f.src start moved
  let computed := aluWrite fn f start signalled
  (pointerFields f start computed).nextDraw

end Sys2Proof.Machine
end

