-- ==== Sys2Proof/Machine/Jp.lean ====
section
/-! DEFINITION. The JP instructions (`42_jp.md`): JMP, CALL and the 32 conditional jumps. They write PC, CALL also the
stack, and nothing else (R280). Each condition is read from the state at the start of the instruction (R316). -/

namespace Sys2Proof.Machine

/-- JMP: `pc <- NA` (R281). -/
def execJmp (na : ProgAddr) (s : State) : Host.Outcome State Fault Refusal :=
  .next (s.jumpTo na)

/-- CALL: PC + 1 pushed, `pc <- NA` (R282). -/
def execCall (na : ProgAddr) (s : State) : Host.Outcome State Fault Refusal :=
  .next ((s.push (nextPc s.pc)).jumpTo na)

/-- A conditional jump: NA if the condition holds, else PC + 1 (R283). -/
def jumpIf (taken : Bool) (na : ProgAddr) (s : State) : Host.Outcome State Fault Refusal :=
  .next (s.jumpTo (if taken then na else nextPc s.pc))

/-- JNCA (R284). -/
def execJnca (na : ProgAddr) (s : State) : Host.Outcome State Fault Refusal :=
  jumpIf (!s.flagA.c) na s

/-- JCA (R285). -/
def execJca (na : ProgAddr) (s : State) : Host.Outcome State Fault Refusal :=
  jumpIf (s.flagA.c) na s

/-- JNCB (R286). -/
def execJncb (na : ProgAddr) (s : State) : Host.Outcome State Fault Refusal :=
  jumpIf (!s.flagB.c) na s

/-- JCB (R287). -/
def execJcb (na : ProgAddr) (s : State) : Host.Outcome State Fault Refusal :=
  jumpIf (s.flagB.c) na s

/-- JNZA (R288). -/
def execJnza (na : ProgAddr) (s : State) : Host.Outcome State Fault Refusal :=
  jumpIf (!s.flagA.z) na s

/-- JZA (R289). -/
def execJza (na : ProgAddr) (s : State) : Host.Outcome State Fault Refusal :=
  jumpIf (s.flagA.z) na s

/-- JNZB (R290). -/
def execJnzb (na : ProgAddr) (s : State) : Host.Outcome State Fault Refusal :=
  jumpIf (!s.flagB.z) na s

/-- JZB (R291). -/
def execJzb (na : ProgAddr) (s : State) : Host.Outcome State Fault Refusal :=
  jumpIf (s.flagB.z) na s

/-- JNOVA0 (R292). -/
def execJnova0 (na : ProgAddr) (s : State) : Host.Outcome State Fault Refusal :=
  jumpIf (!s.flagA.ov0) na s

/-- JOVA0 (R293). -/
def execJova0 (na : ProgAddr) (s : State) : Host.Outcome State Fault Refusal :=
  jumpIf (s.flagA.ov0) na s

/-- JNOVB0 (R294). -/
def execJnovb0 (na : ProgAddr) (s : State) : Host.Outcome State Fault Refusal :=
  jumpIf (!s.flagB.ov0) na s

/-- JOVB0 (R295). -/
def execJovb0 (na : ProgAddr) (s : State) : Host.Outcome State Fault Refusal :=
  jumpIf (s.flagB.ov0) na s

/-- JNOVA1 (R296). -/
def execJnova1 (na : ProgAddr) (s : State) : Host.Outcome State Fault Refusal :=
  jumpIf (!s.flagA.ov1) na s

/-- JOVA1 (R297). -/
def execJova1 (na : ProgAddr) (s : State) : Host.Outcome State Fault Refusal :=
  jumpIf (s.flagA.ov1) na s

/-- JNOVB1 (R298). -/
def execJnovb1 (na : ProgAddr) (s : State) : Host.Outcome State Fault Refusal :=
  jumpIf (!s.flagB.ov1) na s

/-- JOVB1 (R299). -/
def execJovb1 (na : ProgAddr) (s : State) : Host.Outcome State Fault Refusal :=
  jumpIf (s.flagB.ov1) na s

/-- JNSA0 (R300). -/
def execJnsa0 (na : ProgAddr) (s : State) : Host.Outcome State Fault Refusal :=
  jumpIf (!s.flagA.s0) na s

/-- JSA0 (R301). -/
def execJsa0 (na : ProgAddr) (s : State) : Host.Outcome State Fault Refusal :=
  jumpIf (s.flagA.s0) na s

/-- JNSB0 (R302). -/
def execJnsb0 (na : ProgAddr) (s : State) : Host.Outcome State Fault Refusal :=
  jumpIf (!s.flagB.s0) na s

/-- JSB0 (R303). -/
def execJsb0 (na : ProgAddr) (s : State) : Host.Outcome State Fault Refusal :=
  jumpIf (s.flagB.s0) na s

/-- JNSA1 (R304). -/
def execJnsa1 (na : ProgAddr) (s : State) : Host.Outcome State Fault Refusal :=
  jumpIf (!s.flagA.s1) na s

/-- JSA1 (R305). -/
def execJsa1 (na : ProgAddr) (s : State) : Host.Outcome State Fault Refusal :=
  jumpIf (s.flagA.s1) na s

/-- JNSB1 (R306). -/
def execJnsb1 (na : ProgAddr) (s : State) : Host.Outcome State Fault Refusal :=
  jumpIf (!s.flagB.s1) na s

/-- JSB1 (R307). -/
def execJsb1 (na : ProgAddr) (s : State) : Host.Outcome State Fault Refusal :=
  jumpIf (s.flagB.s1) na s

/-- JDPL0 (R308). -/
def execJdpl0 (na : ProgAddr) (s : State) : Host.Outcome State Fault Refusal :=
  jumpIf (s.dp.extractLsb' 0 4 == 0#4) na s

/-- JDPLF (R309). -/
def execJdplf (na : ProgAddr) (s : State) : Host.Outcome State Fault Refusal :=
  jumpIf (s.dp.extractLsb' 0 4 == 15#4) na s

/-- JNSIAK (R310). -/
def execJnsiak (na : ProgAddr) (s : State) : Host.Outcome State Fault Refusal :=
  jumpIf (!s.siack) na s

/-- JSIAK (R311). -/
def execJsiak (na : ProgAddr) (s : State) : Host.Outcome State Fault Refusal :=
  jumpIf (s.siack) na s

/-- JNSOAK (R312). -/
def execJnsoak (na : ProgAddr) (s : State) : Host.Outcome State Fault Refusal :=
  jumpIf (!s.soack) na s

/-- JSOAK (R313). -/
def execJsoak (na : ProgAddr) (s : State) : Host.Outcome State Fault Refusal :=
  jumpIf (s.soack) na s

/-- JNRQM (R314). -/
def execJnrqm (na : ProgAddr) (s : State) : Host.Outcome State Fault Refusal :=
  jumpIf (!s.rqm) na s

/-- JRQM (R315). -/
def execJrqm (na : ProgAddr) (s : State) : Host.Outcome State Fault Refusal :=
  jumpIf (s.rqm) na s

end Sys2Proof.Machine
end

