-- ==== Sys2Proof/Machine/Ldi.lean ====
section
/-! DEFINITION. The LDI instruction (`43_ldi.md` R330 to R332): the immediate on the bus, the same sixteen destinations
as OP/RT, PC + 1. No ALU function, no flag, no pointer field, no source side effect (R332). -/

namespace Sys2Proof.Machine

/-- LDI (R330, R331). -/
def execLdi (dst : Dst) (imm : Word) (s : State) : Host.Outcome State Fault Refusal :=
  .next (destination dst imm s s).nextDraw.advance

end Sys2Proof.Machine
end

