-- ==== Sys2Proof/Machine/Op.lean ====
section
/-! DEFINITION. The OP instructions (`40_op_rt.md` R161): the whole multi-operation, then PC + 1. One meaning per ALU
function, that is per row of the opcode table. -/

namespace Sys2Proof.Machine

/-- OP with ALU function NOP (R161, R211, R235). -/
def execOpNop (f : OpFields) (s : State) : Host.Outcome State Fault Refusal :=
  .next (multiOp .nop f s).advance

/-- OP with ALU function OR (R161, R211, R236). -/
def execOpOr (f : OpFields) (s : State) : Host.Outcome State Fault Refusal :=
  .next (multiOp .or f s).advance

/-- OP with ALU function AND (R161, R211, R237). -/
def execOpAnd (f : OpFields) (s : State) : Host.Outcome State Fault Refusal :=
  .next (multiOp .and f s).advance

/-- OP with ALU function XOR (R161, R211, R238). -/
def execOpXor (f : OpFields) (s : State) : Host.Outcome State Fault Refusal :=
  .next (multiOp .xor f s).advance

/-- OP with ALU function SUB (R161, R211, R239). -/
def execOpSub (f : OpFields) (s : State) : Host.Outcome State Fault Refusal :=
  .next (multiOp .sub f s).advance

/-- OP with ALU function ADD (R161, R211, R240). -/
def execOpAdd (f : OpFields) (s : State) : Host.Outcome State Fault Refusal :=
  .next (multiOp .add f s).advance

/-- OP with ALU function SBB (R161, R211, R241). -/
def execOpSbb (f : OpFields) (s : State) : Host.Outcome State Fault Refusal :=
  .next (multiOp .sbb f s).advance

/-- OP with ALU function ADC (R161, R211, R242). -/
def execOpAdc (f : OpFields) (s : State) : Host.Outcome State Fault Refusal :=
  .next (multiOp .adc f s).advance

/-- OP with ALU function DEC (R161, R211, R243). -/
def execOpDec (f : OpFields) (s : State) : Host.Outcome State Fault Refusal :=
  .next (multiOp .dec f s).advance

/-- OP with ALU function INC (R161, R211, R244). -/
def execOpInc (f : OpFields) (s : State) : Host.Outcome State Fault Refusal :=
  .next (multiOp .inc f s).advance

/-- OP with ALU function CMP (R161, R211, R245). -/
def execOpCmp (f : OpFields) (s : State) : Host.Outcome State Fault Refusal :=
  .next (multiOp .cmp f s).advance

/-- OP with ALU function SHR1 (R161, R211, R246). -/
def execOpShr1 (f : OpFields) (s : State) : Host.Outcome State Fault Refusal :=
  .next (multiOp .shr1 f s).advance

/-- OP with ALU function SHL1 (R161, R211, R247). -/
def execOpShl1 (f : OpFields) (s : State) : Host.Outcome State Fault Refusal :=
  .next (multiOp .shl1 f s).advance

/-- OP with ALU function SHL2 (R161, R211, R248). -/
def execOpShl2 (f : OpFields) (s : State) : Host.Outcome State Fault Refusal :=
  .next (multiOp .shl2 f s).advance

/-- OP with ALU function SHL4 (R161, R211, R249). -/
def execOpShl4 (f : OpFields) (s : State) : Host.Outcome State Fault Refusal :=
  .next (multiOp .shl4 f s).advance

/-- OP with ALU function XCHG (R161, R211, R250). -/
def execOpXchg (f : OpFields) (s : State) : Host.Outcome State Fault Refusal :=
  .next (multiOp .xchg f s).advance

end Sys2Proof.Machine
end

