-- ==== Sys2Proof/Machine/Rt.lean ====
section
/-! DEFINITION. The RT instructions (`40_op_rt.md` R162): the same multi-operation as OP, all of it done, and the return
in place of PC + 1. The return of subroutines and of interrupts; EI is not restored (`60_exceptions.md` R349). -/

namespace Sys2Proof.Machine

/-- RT with ALU function NOP (R162, R211, R235). -/
def execRtNop (f : OpFields) (s : State) : Host.Outcome State Fault Refusal :=
  (multiOp .nop f s).returnTop

/-- RT with ALU function OR (R162, R211, R236). -/
def execRtOr (f : OpFields) (s : State) : Host.Outcome State Fault Refusal :=
  (multiOp .or f s).returnTop

/-- RT with ALU function AND (R162, R211, R237). -/
def execRtAnd (f : OpFields) (s : State) : Host.Outcome State Fault Refusal :=
  (multiOp .and f s).returnTop

/-- RT with ALU function XOR (R162, R211, R238). -/
def execRtXor (f : OpFields) (s : State) : Host.Outcome State Fault Refusal :=
  (multiOp .xor f s).returnTop

/-- RT with ALU function SUB (R162, R211, R239). -/
def execRtSub (f : OpFields) (s : State) : Host.Outcome State Fault Refusal :=
  (multiOp .sub f s).returnTop

/-- RT with ALU function ADD (R162, R211, R240). -/
def execRtAdd (f : OpFields) (s : State) : Host.Outcome State Fault Refusal :=
  (multiOp .add f s).returnTop

/-- RT with ALU function SBB (R162, R211, R241). -/
def execRtSbb (f : OpFields) (s : State) : Host.Outcome State Fault Refusal :=
  (multiOp .sbb f s).returnTop

/-- RT with ALU function ADC (R162, R211, R242). -/
def execRtAdc (f : OpFields) (s : State) : Host.Outcome State Fault Refusal :=
  (multiOp .adc f s).returnTop

/-- RT with ALU function DEC (R162, R211, R243). -/
def execRtDec (f : OpFields) (s : State) : Host.Outcome State Fault Refusal :=
  (multiOp .dec f s).returnTop

/-- RT with ALU function INC (R162, R211, R244). -/
def execRtInc (f : OpFields) (s : State) : Host.Outcome State Fault Refusal :=
  (multiOp .inc f s).returnTop

/-- RT with ALU function CMP (R162, R211, R245). -/
def execRtCmp (f : OpFields) (s : State) : Host.Outcome State Fault Refusal :=
  (multiOp .cmp f s).returnTop

/-- RT with ALU function SHR1 (R162, R211, R246). -/
def execRtShr1 (f : OpFields) (s : State) : Host.Outcome State Fault Refusal :=
  (multiOp .shr1 f s).returnTop

/-- RT with ALU function SHL1 (R162, R211, R247). -/
def execRtShl1 (f : OpFields) (s : State) : Host.Outcome State Fault Refusal :=
  (multiOp .shl1 f s).returnTop

/-- RT with ALU function SHL2 (R162, R211, R248). -/
def execRtShl2 (f : OpFields) (s : State) : Host.Outcome State Fault Refusal :=
  (multiOp .shl2 f s).returnTop

/-- RT with ALU function SHL4 (R162, R211, R249). -/
def execRtShl4 (f : OpFields) (s : State) : Host.Outcome State Fault Refusal :=
  (multiOp .shl4 f s).returnTop

/-- RT with ALU function XCHG (R162, R211, R250). -/
def execRtXchg (f : OpFields) (s : State) : Host.Outcome State Fault Refusal :=
  (multiOp .xchg f s).returnTop

end Sys2Proof.Machine
end

