-- ==== Sys2Proof/Machine/Ports.lean ====
section
/-! DEFINITION. The actions of the outside agents (`60_exceptions.md`): the INT pin (R343), the RST pin (R420, R421),
the host on the parallel port (R360 to R368), the serial input (R375 to R378), the serial output (R385 to R390). Each is
one step between two instructions (`20_memory.md` R103). -/

namespace Sys2Proof.Machine

/-! ### INT and RST -/

/-- `int_rise`: needs the pin low; accepted only while EI = 1, else lost for good (R343). -/
def intRise (s : State) : Host.Outcome State Fault Refusal :=
  if s.intLevel then .refused .turnNotEnabled
  else .next { s with intLevel := true, intPending := s.intPending || s.ei }

/-- `int_fall`: needs the pin high (R343). -/
def intFall (s : State) : Host.Outcome State Fault Refusal :=
  if s.intLevel then .next { s with intLevel := false } else .refused .turnNotEnabled

/-- RST: zero in the items of R70 and R421, the stack list empty (D6), SOSR_BUSY 0 (D34, log 35), the SO pin high with
SORQ = 0 (R388, R422). MODEL'S CHOICE (log 24): what R71 leaves unknown (ACCA, ACCB, TR, K, L, DP, RP, every RAM word, DR,
SI, SISR, SO, SOSR, SIACK, SOACK) becomes a free value, which nothing constrains: D16, D34 and U14 let a proof use neither
that it is cleared nor that it is kept, and R421's "keeps whatever it held" is one of the values. The ROMs are not state
(R421), INT_LEVEL and the level of SOEN/ are the pins' (R70, log 38). The model's bookkeeping of transfers in flight is
cleared with the counts. -/
def rst (s : State) : State :=
  { s with
    -- R70, R421, R422
    pc := Config.resetEntry, stk := [], flagA := Flags.zero, flagB := Flags.zero, sr := 0#16, drq := false,
    sorq := false, sicnt := 0, socnt := 0, intPending := false, sosrBusy := false, soPin := true,
    xferDir := none, xferSpoilt := false, siSpoilt := false, soSpoilt := false, soLastBit := false
    -- R71: free values
    accA  := Config.wordAfterReset .accA s.draws s.accA
    accB  := Config.wordAfterReset .accB s.draws s.accB
    tr    := Config.wordAfterReset .tr s.draws s.tr
    k     := Config.wordAfterReset .k s.draws s.k
    l     := Config.wordAfterReset .l s.draws s.l
    dp    := Config.dpAfterReset s.draws s.dp
    rp    := Config.rpAfterReset s.draws s.rp
    ram   := s.ramAfterRst
    dr    := Config.wordAfterReset .dr s.draws s.dr
    si    := Config.wordAfterReset .si s.draws s.si
    sisr  := Config.wordAfterReset .sisr s.draws s.sisr
    so    := Config.wordAfterReset .so s.draws s.so
    sosr  := Config.wordAfterReset .sosr s.draws s.sosr
    siack := Config.siackAfterReset s.draws s.siack
    soack := Config.soackAfterReset s.draws s.soack
    draws := s.draws + 1 }

/-! ### The parallel port -/

/-- What Table 3.1 makes of a bus cycle (R361). -/
inductive BusOp where
  | idle
  | writeDr
  | readDr
  | readSr
  | prohibited
deriving DecidableEq, Repr

/-- Table 3.1 (R361); DACK/ low is CS/ and A0 both low (R361, R367). -/
def busOp (c : BusCycle) : BusOp :=
  match c.cs && c.dack, c.a0 && c.dack, c.wr, c.rd with
  | true, _, _, _ => .idle
  | false, _, true, true => .idle
  | false, _, false, false => .prohibited
  | false, false, false, true => .writeDr
  | false, false, true, false => .readDr
  | false, true, false, true => .prohibited
  | false, true, true, false => .readSr

/-- The transfer is complete: RQM <- 0 if DMA = 0, DRQ <- 0 if DMA = 1 (`done` of R363, R364, log 26). -/
def State.finishTransfer (s : State) : State :=
  { s with
    sr      := if s.dma then s.sr else s.sr &&& ~~~rqmBit
    drq     := if s.dma then false else s.drq }

/-- The first byte of a 16-bit transfer is done: DRS <- 1 (R363, R364). -/
def State.firstByteDone (s : State) (d : XferDir) : State :=
  { s with sr := s.sr ||| drsBit, xferDir := some d }

/-- The second byte is done: DRS <- 0, and the transfer is complete (R363, R364). -/
def State.secondByteDone (s : State) : State :=
  { s with sr := s.sr &&& ~~~drsBit, xferDir := none }.finishTransfer

/-- How a transferred byte moves the handshake on: 8-bit mode completes at once, 16-bit mode at the second byte (R363,
R364). -/
def State.byteDone (s : State) (d : XferDir) : State :=
  if s.drc then s.finishTransfer
  else if s.drs then s.secondByteDone
  else s.firstByteDone d

/-- The half of DR the host's byte is: the high byte only for the second byte of a 16-bit transfer (R361, R363). -/
def State.highHalf (s : State) : Bool := !s.drc && s.drs

/-- `host_write_dr(b)` (R363); in 8-bit mode DR[15:8] keeps its value (log 26). -/
def hostWriteDr (b : Byte) (s : State) : State :=
  { s with
    dr   := if s.highHalf then b ++ s.dr.extractLsb' 0 8 else s.dr.extractLsb' 8 8 ++ b
    dBus := none }.byteDone .hostWrites

/-- `host_read_dr` (R364): the byte goes to D7 to D0, DR is not changed. -/
def hostReadDr (s : State) : State :=
  { s with dBus := some (if s.highHalf then s.dr.extractLsb' 8 8 else s.dr.extractLsb' 0 8) }.byteDone .hostReads

/-- `host_read_sr` (R362): SR[15:8] goes to D7 to D0, nothing else changes. -/
def hostReadSr (s : State) : State := { s with dBus := some (s.sr.extractLsb' 8 8) }

/-- Why a transfer with DR is outside the model's guarantee, if it is (R368, log 25). -/
def drRefusal (c : BusCycle) (d : XferDir) (s : State) : Option Refusal :=
  if !c.dack && !s.dma then some .dackOutsideDma
  else if s.xferSpoilt then some .transferModeChanged
  else if s.drs && s.xferDir.any (· != d) then some .mixedTransfer
  else none

/-- A transfer with DR, or its refusal. -/
def drTransfer (c : BusCycle) (d : XferDir) (s after : State) : Host.Outcome State Fault Refusal :=
  match drRefusal c d s with
  | some r => .refused r
  | none => .next after

/-- One bus cycle of the host (R361). -/
def hostCycle (c : BusCycle) (s : State) : Host.Outcome State Fault Refusal :=
  match busOp c with
  | .idle => .next { s with dBus := none }
  | .writeDr => drTransfer c .hostWrites s (hostWriteDr c.data s)
  | .readDr => drTransfer c .hostReads s (hostReadDr s)
  | .readSr => .next (hostReadSr s)
  | .prohibited => .refused .prohibitedBusCycle

/-! ### The serial input port -/

/-- The length of a serial word by its mode bit (R51, R52). -/
def serialLength (eight : Bool) : Nat := if eight then 8 else 16

/-- `latch(w)`: SI takes the word, in 8-bit mode the byte with zeros above; SIACK <- 1 (R377, log 28). A word not yet
read is lost (R378). -/
def State.latchSi (s : State) (w : Word) : State :=
  { s with
    si    := if s.sic then (w.extractLsb' 0 8).zeroExtend 16 else w
    siack := true }

/-- `si_bit(b)`: the bit enters at bit 0, and the last bit of the word latches it (R376). -/
def siBit (b : Bool) (s : State) : State :=
  let shifted : Word := s.sisr.extractLsb' 0 15 ++ BitVec.ofBool b
  if s.sicnt + 1 < serialLength s.sic then { s with sisr := shifted, sicnt := s.sicnt + 1 }
  else { s with sisr := shifted, sicnt := 0 }.latchSi shifted

/-- The last bit of an output word is held until the rising edge of SCK (R386); after it the idle pin is high (R388, log
30). -/
def State.releasePin (s : State) : State := { s with soPin := s.soPin || s.soLastBit, soLastBit := false }

/-- A rising SCK edge: an input bit if SIEN/ is low (R375, log 31), none if it is high; refused once the program has
changed SIC in the middle of a word (R379, log 28). SCK is the output port's clock too, whose last bit it ends (R386). -/
def sckRise (sien si : Bool) (s : State) : Host.Outcome State Fault Refusal :=
  if sien then .next s.releasePin
  else if s.siSpoilt then .refused .serialInputModeChanged
  else .next (siBit si s.releasePin)

/-! ### The serial output port -/

/-- `so_load`: enabled when a word waits in SO and the shift register is free (R385, log 29). -/
def soLoad (s : State) : Host.Outcome State Fault Refusal :=
  if s.soack && !s.sosrBusy then
    .next { s with sosr := s.so, sosrBusy := true, socnt := 0, soack := false, sorq := true }
  else .refused .turnNotEnabled

/-- `end_of_word`: a waiting word is loaded at once and SORQ stays 1, else SORQ falls (R387) and the pin keeps the bit
just sent until the rising SCK edge (R386, log 30). -/
def State.endOfWord (s : State) : State :=
  if s.soack then { s with socnt := 0, sosr := s.so, soack := false }
  else { s with socnt := 0, sosrBusy := false, sorq := false, soLastBit := true }

/-- `so_bit`: SOSR[SOCNT] to the pin, and the end of the word after its last bit (R386, R390). -/
def soBit (s : State) : State :=
  let sent := { s with soPin := s.sosr.getLsbD s.socnt, soLastBit := false }
  if s.socnt + 1 < serialLength s.soc then { sent with socnt := s.socnt + 1 } else sent.endOfWord

/-- A falling SCK edge: a bit if SORQ = 1 and SOEN/ is low (R386); otherwise the pin is high (R388); refused once the
program has changed SOC in the middle of a word (R390, log 29). -/
def sckFall (s : State) : Host.Outcome State Fault Refusal :=
  if s.sorq && !s.soenLevel then
    if s.soSpoilt then .refused .serialOutputModeChanged else .next (soBit s)
  else .next { s with soPin := true, soLastBit := false }

/-- SOEN/ takes a level: high, it makes the SO pin high at once, whatever SORQ is (R388, log 30); low, it lets the next
falling SCK edge send a bit (R386). -/
def soenChange (level : Bool) (s : State) : State :=
  { s with soenLevel := level, soPin := level || s.soPin, soLastBit := !level && s.soLastBit }

end Sys2Proof.Machine
end

