-- ==== Sys2Proof/Machine/Turns.lean ====
section
/-! DEFINITION. One move of each agent (`00_scope.md` R12): the core's step, interrupt entry or instruction, and the
outside agents' actions. -/

namespace Sys2Proof.Machine

/-- The instruction at PC: fetched, decoded, executed; a word without a meaning is the fault `UndefinedBranch` (R91,
R137, R317). -/
def runInstruction (s : State) : Host.Outcome State Fault Refusal :=
  match decode s.fetch with
  | .instr i => exec i s
  | .rejected .undefinedBranch => .fault .undefinedBranch

/-- The core's step: the interrupt entry when one is pending, else the instruction at PC (R345). -/
def coreStep (s : State) : Host.Outcome State Fault Refusal :=
  if s.intPending then .next s.interruptEntry else runInstruction s

/-- The move of the agent whose turn it is. -/
def takeTurn (t : Turn) (s : State) : Host.Outcome State Fault Refusal :=
  match t with
  | .core => coreStep s
  | .intRise => intRise s
  | .intFall => intFall s
  | .rst => .next (rst s)
  | .bus c => hostCycle c s
  | .sckRise sien si => sckRise sien si s
  | .sckFall => sckFall s
  | .soen level => .next (soenChange level s)
  | .soLoad => soLoad s

/-- `IROM[PC] <- w`, placed from outside: no step of the machine writes a ROM (R20, log 6). -/
def State.placeInstruction (s : State) (w : InstrWord) : State :=
  { s with irom := Memory.write s.irom s.pc.toNat w }

end Sys2Proof.Machine
end

