-- ==== Sys2Proof/Machine/Step.lean ====
section
/-! DEFINITION. One step of the machine: the first of the listed turns, and the core when none is listed (log 5). -/

namespace Sys2Proof.Machine

/-- One step. -/
def step (s : State) : Host.Outcome State Fault Refusal :=
  match s.turns with
  | [] => coreStep s
  | t :: rest => takeTurn t { s with turns := rest }

/-- The state whose very next step runs the instruction `w`: the word stands at PC in the instruction ROM, it is the
core's turn and no interrupt is pending. Bits above `nbits`, and above the 23 bits of a word, are dropped. -/
def State.withFetchWord (s : State) (nbits w : Nat) : State :=
  { s.placeInstruction (BitVec.ofNat 23 (w % 2 ^ nbits)) with turns := [], intPending := false }

end Sys2Proof.Machine
end

