-- ==== Sys2Proof/Machine/Assembler.lean ====
section
/-! DEFINITION. The assembler's statements (`30_encoding.md` R140 to R145): their parts and defaults, the addresses a
jump may name, the words they assemble to, and their text with the mnemonics of the spec's tables. The scanning of
source text (layout, comments) is not modelled (log 34). -/

namespace Sys2Proof.Machine

/-! ### The statements -/

/-- The seven functions that take a P input (R167, R234). -/
def takesP (fn : AluFn) : Bool :=
  match fn with
  | .or | .and | .xor | .sub | .add | .sbb | .adc => true
  | .nop | .dec | .inc | .cmp | .shr1 | .shl1 | .shl2 | .shl4 | .xchg => false

/-- One part of an OP/RT statement (R141). A function without a P input is written with the accumulator only. -/
inductive OpPart where
  | mov (dst : Dst) (src : Src)
  | alu (fn : AluFn) (asl : Asl) (psel : Option PSel)
  | dpl (d : DplOp)
  | dph (n : BitVec 3)
  | rp (r : RpOp)
  | ret
deriving DecidableEq, Repr

/-- The parts an OP/RT statement has so far; each is optional (R141). -/
structure OpParts where
  mov : Option (Dst × Src)
  alu : Option (AluFn × Asl × Option PSel)
  dpl : Option DplOp
  dph : Option (BitVec 3)
  rp  : Option RpOp
  ret : Bool
deriving DecidableEq, Repr

/-- The statement `OP ;`. -/
def OpParts.empty : OpParts := ⟨none, none, none, none, none, false⟩

/-- A part added. MODEL'S CHOICE (log 34): none for a part that is there already, and none for an ALU part with a P input
that its function does not take (the pattern of R141) or without one that it does. -/
def OpParts.add (s : OpParts) (p : OpPart) : Option OpParts :=
  match p with
  | .mov dst src => if s.mov.isSome then none else some { s with mov := some (dst, src) }
  | .alu fn asl psel =>
    if s.alu.isSome || psel.isSome != takesP fn then none else some { s with alu := some (fn, asl, psel) }
  | .dpl d => if s.dpl.isSome then none else some { s with dpl := some d }
  | .dph n => if s.dph.isSome then none else some { s with dph := some n }
  | .rp r => if s.rp.isSome then none else some { s with rp := some r }
  | .ret => if s.ret then none else some { s with ret := true }

/-- The ALU function of the statement: NOP when left out (R144). -/
def OpParts.fn (s : OpParts) : AluFn := (s.alu.map (·.1)).getD .nop

/-- The operand fields: a part left out is its no-operation code (R144). -/
def OpParts.fields (s : OpParts) : OpFields where
  psel  := ((s.alu.bind (·.2.2)).getD .ram)
  asl   := (s.alu.map (·.2.1)).getD .accA
  dpl   := s.dpl.getD .dpnop
  dphm  := s.dph.getD 0#3
  rpdcr := s.rp.getD .rpnop
  src   := (s.mov.map (·.2)).getD .non
  dst   := (s.mov.map (·.1)).getD .non

/-- The instruction of the parts: RET makes it an RT (R141). -/
def OpParts.instr (s : OpParts) : Instr := if s.ret then rtInstr s.fn s.fields else opInstr s.fn s.fields

/-- An OP/RT statement from its parts in the order written (R141, R145). -/
def assembleOp (parts : List OpPart) : Option Instr := (parts.foldlM OpParts.add OpParts.empty).map OpParts.instr

/-- An address expression: a number, `$` plus an offset, a label (R140, R142). -/
inductive AddrExpr where
  | num (a : ProgAddr)
  | here (offset : ProgAddr)
  | label (name : String)
deriving DecidableEq, Repr

/-- One statement (R141 to R143). -/
inductive Statement where
  | op (parts : List OpPart)
  | jmp (a : AddrExpr)
  | call (a : AddrExpr)
  | jcc (c : Cond) (a : AddrExpr)
  | ldi (dst : Dst) (imm : Word)
deriving DecidableEq, Repr

/-- The address an expression names, at the address of its statement: `$` is that address, `$+2` skips the next
statement (R140). MODEL'S CHOICE: a sum past 1FFH wraps modulo 512, a label that the listing does not define names no
address, and of two equal labels the first counts; the spec is silent on all three (N29, log 34). -/
def AddrExpr.value (here : ProgAddr) (labels : List (String × ProgAddr)) (e : AddrExpr) : Option ProgAddr :=
  match e with
  | .num a => some a
  | .here offset => some (here + offset)
  | .label name => labels.lookup name

/-- The instruction of a statement at an address; none for a jump to an undefined label and for rejected parts (MODEL'S
CHOICE, log 34). -/
def Statement.instr (here : ProgAddr) (labels : List (String × ProgAddr)) (s : Statement) : Option Instr :=
  match s with
  | .op parts => assembleOp parts
  | .jmp a => (a.value here labels).map .jmp
  | .call a => (a.value here labels).map .call
  | .jcc c a => (a.value here labels).map (condJump c)
  | .ldi dst imm => some (.ldi dst imm)

/-- The addresses of the labels of a listing whose first statement stands at `origin`: a label is the address of its
statement (R140). MODEL'S CHOICE: the statement after the one at 1FFH stands at 000H (N29, log 34). -/
def labelTable (origin : ProgAddr) : List (Option String × Statement) → List (String × ProgAddr)
  | [] => []
  | (some name, _) :: rest => (name, origin) :: labelTable (origin + 1#9) rest
  | (none, _) :: rest => labelTable (origin + 1#9) rest

/-- The words of a listing's statements, from an address on, under a label table. MODEL'S CHOICE (N29, log 34): the
word after the one at 1FFH stands at 000H, and one statement that assembles to nothing (an undefined label, a rejected
OP/RT statement) makes the whole listing assemble to nothing. -/
def assembleFrom (labels : List (String × ProgAddr)) (here : ProgAddr) :
    List (Option String × Statement) → Option (List (ProgAddr × InstrWord))
  | [] => some []
  | (_, s) :: rest =>
    match s.instr here labels, assembleFrom labels (here + 1#9) rest with
    | some i, some words => some ((here, encode i) :: words)
    | _, _ => none

/-- A listing assembled at an origin. -/
def assemble (origin : ProgAddr) (listing : List (Option String × Statement)) :
    Option (List (ProgAddr × InstrWord)) :=
  assembleFrom (labelTable origin listing) origin listing

/-! ### Their text -/

end Sys2Proof.Machine

namespace Sys2Proof

/-- Table 4.1 (R126). -/
def PSel.text : PSel → String
  | .ram => "RAM"
  | .idb => "IDB"
  | .m => "M"
  | .n => "N"

/-- Table 4.2 (R127). -/
def AluFn.text : AluFn → String
  | .nop => "NOP"
  | .or => "OR"
  | .and => "AND"
  | .xor => "XOR"
  | .sub => "SUB"
  | .add => "ADD"
  | .sbb => "SBB"
  | .adc => "ADC"
  | .dec => "DEC"
  | .inc => "INC"
  | .cmp => "CMP"
  | .shr1 => "SHR1"
  | .shl1 => "SHL1"
  | .shl2 => "SHL2"
  | .shl4 => "SHL4"
  | .xchg => "XCHG"

/-- Table 4.3 (R128). -/
def Asl.text : Asl → String
  | .accA => "ACCA"
  | .accB => "ACCB"

/-- Table 4.4 (R129). -/
def DplOp.text : DplOp → String
  | .dpnop => "DPNOP"
  | .dpinc => "DPINC"
  | .dpdec => "DPDEC"
  | .dpclr => "DPCLR"

/-- Table 4.6 (R131). -/
def RpOp.text : RpOp → String
  | .rpnop => "RPNOP"
  | .rpdec => "RPDEC"

/-- Table 4.7 (R132). -/
def Src.text : Src → String
  | .non => "NON"
  | .a => "A"
  | .b => "B"
  | .tr => "TR"
  | .dp => "DP"
  | .rp => "RP"
  | .ro => "RO"
  | .sgn => "SGN"
  | .dr => "DR"
  | .drnf => "DRNF"
  | .sr => "SR"
  | .sim => "SIM"
  | .sil => "SIL"
  | .k => "K"
  | .l => "L"
  | .mem => "MEM"

/-- Table 4.8 (R133). MODEL'S CHOICE (log 34): a statement as syntax says which of the two @NON codes it assembles to, 0000
(`non`) or 1110 (`non2`), and both print as `@NON`; R144 does not state which of them an assembler emits for a written
@NON. A MOV part left out is 0000, as in the spec's encodings. -/
def Dst.text : Dst → String
  | .non => "@NON"
  | .a => "@A"
  | .b => "@B"
  | .tr => "@TR"
  | .dp => "@DP"
  | .rp => "@RP"
  | .dr => "@DR"
  | .sr => "@SR"
  | .sol => "@SOL"
  | .som => "@SOM"
  | .k => "@K"
  | .klr => "@KLR"
  | .klm => "@KLM"
  | .l => "@L"
  | .non2 => "@NON"
  | .mem => "@MEM"

/-- Table 4.10 (R135). -/
def Cond.text : Cond → String
  | .jnca => "JNCA"
  | .jca => "JCA"
  | .jncb => "JNCB"
  | .jcb => "JCB"
  | .jnza => "JNZA"
  | .jza => "JZA"
  | .jnzb => "JNZB"
  | .jzb => "JZB"
  | .jnova0 => "JNOVA0"
  | .jova0 => "JOVA0"
  | .jnovb0 => "JNOVB0"
  | .jovb0 => "JOVB0"
  | .jnova1 => "JNOVA1"
  | .jova1 => "JOVA1"
  | .jnovb1 => "JNOVB1"
  | .jovb1 => "JOVB1"
  | .jnsa0 => "JNSA0"
  | .jsa0 => "JSA0"
  | .jnsb0 => "JNSB0"
  | .jsb0 => "JSB0"
  | .jnsa1 => "JNSA1"
  | .jsa1 => "JSA1"
  | .jnsb1 => "JNSB1"
  | .jsb1 => "JSB1"
  | .jdpl0 => "JDPL0"
  | .jdplf => "JDPLF"
  | .jnsiak => "JNSIAK"
  | .jsiak => "JSIAK"
  | .jnsoak => "JNSOAK"
  | .jsoak => "JSOAK"
  | .jnrqm => "JNRQM"
  | .jrqm => "JRQM"

end Sys2Proof

namespace Sys2Proof.Machine

/-- A hexadecimal digit. -/
def hexDigit (n : Nat) : Char :=
  if n < 10 then Char.ofNat (48 + n) else Char.ofNat (55 + n)

/-- The hexadecimal digits of a number, most significant first, `width` of them. -/
def hexDigits : Nat → Nat → List Char
  | 0, _ => []
  | width + 1, n => hexDigits width (n / 16) ++ [hexDigit (n % 16)]

/-- A number in the manual's form: hexadecimal with a trailing H, a leading 0 before a letter (R140, which
shows it "in some examples"). MODEL'S CHOICE (log 34): always that 0, and always `width` digits. -/
def hexText (width n : Nat) : String :=
  let ds := hexDigits width n
  let lead := match ds with
    | c :: _ => if c.isDigit then [] else ['0']
    | [] => []
  String.ofList (lead ++ ds) ++ "H"

/-- The text of a part (R141); the `Mn` of R130. -/
def OpPart.text : OpPart → String
  | .mov dst src => "MOV " ++ dst.text ++ "," ++ src.text
  | .alu fn asl (some p) => fn.text ++ " " ++ asl.text ++ "," ++ p.text
  | .alu fn asl none => fn.text ++ " " ++ asl.text
  | .dpl d => d.text
  | .dph n => "M" ++ String.ofList [hexDigit n.toNat]
  | .rp r => r.text
  | .ret => "RET"

/-- The text of an offset after `$+`: a single digit stands alone, as in the `$+2` of R140; MODEL'S CHOICE (N29, log 34): a
larger offset is written as any other number, in hexadecimal with a trailing H. -/
def offsetText (n : Nat) : String :=
  if n < 10 then String.ofList [hexDigit n] else hexText 3 n

/-- The text of an address expression (R140, R142). MODEL'S CHOICE (N29, log 34): an address has three digits, and `$`
with the offset 0 is written `$`. -/
def AddrExpr.text : AddrExpr → String
  | .num a => hexText 3 a.toNat
  | .here offset => if offset = 0#9 then "$" else "$+" ++ offsetText offset.toNat
  | .label name => name

/-- The text of a statement, ended by a semicolon (R140 to R143). MODEL'S CHOICE (log 34): one line, one space between
parts. -/
def Statement.text : Statement → String
  | .op parts => parts.foldl (fun t p => t ++ " " ++ p.text) "OP" ++ " ;"
  | .jmp a => "JMP " ++ a.text ++ " ;"
  | .call a => "CALL " ++ a.text ++ " ;"
  | .jcc c a => c.text ++ " " ++ a.text ++ " ;"
  | .ldi dst imm => "LDI " ++ dst.text ++ "," ++ hexText 4 imm.toNat ++ " ;"

end Sys2Proof.Machine
end

