-- ==== Sys2Proof/Safety.lean ====
section
/-! DEFINITION. What a state of the SPI always satisfies, in the terms the claims use. -/

namespace Sys2Proof.Machine

/-- The three memories are in canonical form and inside their sizes (`20_memory.md` R90). -/
abbrev State.MemoriesWf (s : State) : Prop :=
  Memory.wf Config.iromSize s.irom ∧ Memory.wf Config.ramSize s.ram ∧ Memory.wf Config.dromSize s.drom

/-- The stack holds at most four addresses (R24). -/
abbrev State.StackBounded (s : State) : Prop := s.stk.length ≤ Config.stackDepth

/-- SR bits 6 to 2 are zero (R54). -/
abbrev State.StatusReservedZero (s : State) : Prop := s.sr &&& 0x007C#16 = 0#16

/-- An interrupt can be pending only while EI = 1 (`60_exceptions.md` R348). -/
abbrev State.PendingOnlyEnabled (s : State) : Prop := s.intPending = true → s.ei = true

/-- The serial ports: SOSR_BUSY equals SORQ (R70), the counts stay below 16, and no bit is counted while no word is
being sent (R376, R385 to R387). -/
abbrev State.SerialConsistent (s : State) : Prop :=
  s.sosrBusy = s.sorq ∧ s.sicnt < 16 ∧ s.socnt < 16 ∧ (s.sorq = false → s.socnt = 0)

/-- The SO pin idles high: while SOEN/ is high, and while SORQ = 0 once the last bit has been let go (R386, R388, log 30). -/
abbrev State.PinIdlesHigh (s : State) : Prop :=
  s.soenLevel = true ∨ (s.sorq = false ∧ s.soLastBit = false) → s.soPin = true

/-- A 16-bit host transfer is under way exactly when DRS = 1 (R48; `xferDir` is the model's own field). -/
abbrev State.TransferConsistent (s : State) : Prop := s.xferDir.isSome = s.drs

/-- The invariant of the machine. -/
abbrev State.Inv (s : State) : Prop :=
  s.MemoriesWf ∧ s.StackBounded ∧ s.StatusReservedZero ∧ s.PendingOnlyEnabled ∧ s.SerialConsistent
    ∧ s.TransferConsistent ∧ s.PinIdlesHigh

/-- The machine stopped with a fault or a refusal. -/
def Stopped (o : Host.Outcome State Fault Refusal) : Prop :=
  match o with
  | .next _ => False
  | .fault _ => True
  | .refused _ => True

end Sys2Proof.Machine
end

