-- ==== Sys2Proof/Certificates/Slice0/Obligations.lean ====
section
/-! DEFINITION. The statements for the provers. The definitions under Sys2Proof.Claims say what the spec's rules give, in
the rules' own words, so that no statement rests on the meaning it is about; each statement's docstring names the rules
it formalises and what in it is the spec's or the model's own choice. -/

namespace Sys2Proof.Claims

open Sys2Proof.Machine

/-- A flag as the integer 0 or 1. -/
def bit (b : Bool) : Nat := if b then 1 else 0

/-- A signed result that does not fit in 16 bits (R252). -/
def OutOfRange (x : Int) : Prop := x < -32768 ∨ 32767 < x

/-- The move does not go to the accumulator the ALU works on (R169). -/
def NotMovedOver (f : OpFields) : Prop :=
  ¬(f.dst = .a ∧ f.asl = .accA) ∧ ¬(f.dst = .b ∧ f.asl = .accB)

/-- What each SRC code puts on the bus (R170 to R185). The four free values are Config's. -/
def busValue (src : Src) (s : State) : Word :=
  match src with
  | .non => Config.floatingBus s.draws
  | .a => s.accA
  | .b => s.accB
  | .tr => s.tr
  | .dp => BitVec.ofNat 16 s.dp.toNat
  | .rp => BitVec.ofNat 16 s.rp.toNat
  | .ro =>
    if Config.part = .upd7720A ∧ s.rp.toNat < 2 then BitVec.ofNat 16 (8 * (Config.testPatternOnIdb s.draws).toNat)
    else BitVec.ofNat 16 (8 * (Memory.read s.drom s.rp.toNat).toNat)
  | .sgn => if s.flagA.s1 = true then 0x7FFF#16 else 0x8000#16
  | .dr => s.dr
  | .drnf => s.dr
  | .sr => s.sr
  | .sim => s.si
  | .sil => if s.sic = true then Config.sil8 (s.si.extractLsb' 0 8) else BitVec.ofFnLE fun i => s.si.getLsbD (15 - i)
  | .k => s.k
  | .l => s.l
  | .mem => Memory.read s.ram s.dp.toNat

/-- The word that @KLR loads into L (R197, R28). -/
def romWordForL (s : State) : Word :=
  if Config.part = .upd7720A ∧ s.rp.toNat < 2 then BitVec.ofNat 16 (8 * (Config.testPatternOnL s.draws).toNat)
  else BitVec.ofNat 16 (8 * (Memory.read s.drom s.rp.toNat).toNat)

/-- The high-block word that @KLM loads into K: address DP with bit 6 forced to 1 (R198). -/
def highWordForK (s : State) : Word := Memory.read s.ram (64 + s.dp.toNat % 64)

/-- The bits of a word in the opposite order (R9). -/
def reversed (v : Word) : Word := BitVec.ofFnLE fun i => v.getLsbD (15 - i)

/-- What each P-SELECT code gives the ALU (R163 to R166). -/
def pInput (f : OpFields) (s : State) : Word :=
  match f.psel with
  | .ram => Memory.read s.ram s.dp.toNat
  | .idb => busValue f.src s
  | .m => BitVec.ofInt 16 (2 * s.k.toInt * s.l.toInt / 65536)
  | .n => BitVec.ofInt 16 (2 * s.k.toInt * s.l.toInt)

/-- The operand and carry input of the three additions (R240, R242, R244). -/
def AdditionInputs (fn : AluFn) (f : OpFields) (s : State) (p : Word) (cin : Bool) : Prop :=
  (fn = .add ∧ p = pInput f s ∧ cin = false) ∨ (fn = .adc ∧ p = pInput f s ∧ cin = s.carryOther f.asl)
    ∨ (fn = .inc ∧ p = 1#16 ∧ cin = false)

/-- The operand and borrow input of the three subtractions (R239, R241, R243). -/
def SubtractionInputs (fn : AluFn) (f : OpFields) (s : State) (p : Word) (bin : Bool) : Prop :=
  (fn = .sub ∧ p = pInput f s ∧ bin = false) ∨ (fn = .sbb ∧ p = pInput f s ∧ bin = s.carryOther f.asl)
    ∨ (fn = .dec ∧ p = 1#16 ∧ bin = false)

/-- Result and carry of the nine logical and shift functions, of the accumulator, the P input and the other carry
(R236 to R238, R245 to R250). -/
def logicalResult (fn : AluFn) (q p : Word) (cOther : Bool) : Option (Word × Bool) :=
  match fn with
  | .or => some (q ||| p, false)
  | .and => some (q &&& p, false)
  | .xor => some (q ^^^ p, false)
  | .cmp => some (0xFFFF#16 - q, false)
  | .shr1 => some (BitVec.ofInt 16 (q.toInt / 2), decide (q.toNat % 2 = 1))
  | .shl1 => some (BitVec.ofNat 16 (2 * q.toNat + bit cOther), decide (32768 ≤ q.toNat))
  | .shl2 => some (BitVec.ofNat 16 (4 * q.toNat + 3), false)
  | .shl4 => some (BitVec.ofNat 16 (16 * q.toNat + 15), false)
  | .xchg => some (BitVec.ofNat 16 (256 * q.toNat + q.toNat / 256), false)
  | .nop | .sub | .add | .sbb | .adc | .dec | .inc => none

/-- The six arithmetic functions (R252). -/
def IsArithmetic (fn : AluFn) : Prop :=
  fn = .sub ∨ fn = .add ∨ fn = .sbb ∨ fn = .adc ∨ fn = .dec ∨ fn = .inc

/-- What an arithmetic function adds to the accumulator, as an integer (R239 to R244). -/
def delta (fn : AluFn) (p : Word) (cOther : Bool) : Int :=
  match fn with
  | .sub => -p.toInt
  | .add => p.toInt
  | .sbb => -p.toInt - bit cOther
  | .adc => p.toInt + bit cOther
  | .dec => -1
  | .inc => 1
  | .nop | .or | .and | .xor | .cmp | .shr1 | .shl1 | .shl2 | .shl4 | .xchg => 0

/-- ALU functions one after the other on one accumulator and its flags, each with its P input and other carry. -/
def aluRun : List (AluFn × Word × Bool) → Word × Flags → Word × Flags
  | [], x => x
  | (fn, p, c) :: rest, (q, fl) =>
    aluRun rest ((alu fn ⟨q, p, fl, c, false⟩).r, (alu fn ⟨q, p, fl, c, false⟩).flags)

/-- The exact sum of such a run. -/
def exactSum (q : Word) (ops : List (AluFn × Word × Bool)) : Int :=
  q.toInt + (ops.map fun o => delta o.1 o.2.1 o.2.2).sum

/-- When each of the 32 conditions holds (R284 to R315). -/
def conditionHolds (c : Cond) (s : State) : Prop :=
  match c with
  | .jnca => s.flagA.c = false
  | .jca => s.flagA.c = true
  | .jncb => s.flagB.c = false
  | .jcb => s.flagB.c = true
  | .jnza => s.flagA.z = false
  | .jza => s.flagA.z = true
  | .jnzb => s.flagB.z = false
  | .jzb => s.flagB.z = true
  | .jnova0 => s.flagA.ov0 = false
  | .jova0 => s.flagA.ov0 = true
  | .jnovb0 => s.flagB.ov0 = false
  | .jovb0 => s.flagB.ov0 = true
  | .jnova1 => s.flagA.ov1 = false
  | .jova1 => s.flagA.ov1 = true
  | .jnovb1 => s.flagB.ov1 = false
  | .jovb1 => s.flagB.ov1 = true
  | .jnsa0 => s.flagA.s0 = false
  | .jsa0 => s.flagA.s0 = true
  | .jnsb0 => s.flagB.s0 = false
  | .jsb0 => s.flagB.s0 = true
  | .jnsa1 => s.flagA.s1 = false
  | .jsa1 => s.flagA.s1 = true
  | .jnsb1 => s.flagB.s1 = false
  | .jsb1 => s.flagB.s1 = true
  | .jdpl0 => s.dp.toNat % 16 = 0
  | .jdplf => s.dp.toNat % 16 = 15
  | .jnsiak => s.siack = false
  | .jsiak => s.siack = true
  | .jnsoak => s.soack = false
  | .jsoak => s.soack = true
  | .jnrqm => s.sr.toNat < 32768
  | .jrqm => 32768 ≤ s.sr.toNat

/-- The value an OP, RT or LDI with destination SR puts on the bus. -/
def SrWriteValue (i : Instr) (s : State) (v : Word) : Prop :=
  (∃ fn f, (i = opInstr fn f ∨ i = rtInstr fn f) ∧ f.dst = .sr ∧ v = busValue f.src s) ∨ i = .ldi .sr v

/-- A write of `v` to SR changes SIC while an input word is partly received (R379). -/
def ChangesSicInMidWord (v : Word) (s : State) : Prop := s.sicnt ≠ 0 ∧ v.getLsbD 8 ≠ s.sic

/-- A write of `v` to SR changes SOC while the output shift register holds a word (R390). -/
def ChangesSocInMidWord (v : Word) (s : State) : Prop := s.sosrBusy = true ∧ v.getLsbD 9 ≠ s.soc

/-- A write of `v` to SR changes DRC or DMA while a 16-bit host transfer is half done (R368). -/
def ChangesTransferMode (v : Word) (s : State) : Prop :=
  s.drs = true ∧ (v.getLsbD 10 ≠ s.drc ∨ v.getLsbD 11 ≠ s.dma)

/-- The state with the agents' order of moves put aside. -/
def withTurns (s : State) (ts : List Turn) : State := { s with turns := ts }

/-- The next move is the core's. -/
def CoreMoves (s : State) : Prop := s.turns = [] ∨ ∃ rest, s.turns = .core :: rest

/-- The cycle reaches DR: CS/ and A0 low, or DACK/ low in DMA mode (R361, R363, R364, R367). -/
def AccessesDr (c : BusCycle) (s : State) : Prop :=
  (c.dack = true ∧ c.cs = false ∧ c.a0 = false) ∨ (c.dack = false ∧ s.dma = true)

/-- The cycle writes a byte to DR (R363). -/
def WritesDr (c : BusCycle) (s : State) : Prop := AccessesDr c s ∧ c.wr = false ∧ c.rd = true

/-- The cycle reads a byte of DR (R364). -/
def ReadsDr (c : BusCycle) (s : State) : Prop := AccessesDr c s ∧ c.wr = true ∧ c.rd = false

/-- The same cycle by CS/ and A0 in place of DACK/ (R361, R367). -/
def byChipSelect (c : BusCycle) : BusCycle := { c with cs := false, a0 := false, dack := true }

/-- The host's cycles of Table 3.1 by CS/ and A0 (R361). -/
def writeCycle (b : Byte) : BusCycle := ⟨false, false, false, true, true, b⟩
def readCycle : BusCycle := ⟨false, false, true, false, true, 0#8⟩
def statusCycle : BusCycle := ⟨false, true, true, false, true, 0#8⟩

/-- The rising edges that send a word, first bit `bits 0`, with the input enabled. -/
def serialInTurns (n : Nat) (bits : Nat → Bool) : List Turn := (List.range n).map fun i => .sckRise false (bits i)

/-- Falling edges of SCK, `k` of them each followed by its rising edge (the input disabled), and one more. -/
def serialOutTurns (k : Nat) : List Turn := (List.replicate k [Turn.sckFall, .sckRise true false]).flatten ++ [.sckFall]

end Sys2Proof.Claims

open Sys2Proof Sys2Proof.Machine Sys2Proof.Claims

/-! ### Encoding -/

/-- Every instruction, with every operand value, decodes back from its word. The OP codes of JP and LDI and the places of
NA and ID are the spec's own decisions D1 to D3 (log 16); that the encoder writes zeros in the ignored bits is its
decisions D2 and D3 (R138, log 17). -/
def Obligations.DecodeOfEncodeIsTheInstruction : Prop :=
  ∀ i : Instr, decode (encode i) = .instr i

/-- A well-formed word is the word of the instruction it decodes to. That a well-formed word, and so the encoder's, has
zeros in the ignored bits is the spec's own decisions D2 and D3 (R138, log 17); the OP codes of JP and LDI and the places
of NA and ID are its decisions D1 to D3 (log 16). -/
def Obligations.WellFormedWordIsEncodeOfItsDecode : Prop :=
  ∀ (w : InstrWord) (i : Instr), decode w = .instr i → wellFormedWord w = true → encode i = w

/-- The bits R138 (a) and (e) calls ignored do not change what a word decodes to: CND and D3 to D0 of JMP and CALL, D3
to D0 of a conditional jump, D4 of LDI. (Their places are the spec's decisions D2 and D3, log 16.) -/
def Obligations.IgnoredBitsDoNotChangeDecoding : Prop :=
  (∀ (na : ProgAddr) (cnd : BitVec 5) (low : BitVec 4),
    decode (0b10#2 ++ 0b100#3 ++ cnd ++ na ++ low) = .instr (.jmp na)
      ∧ decode (0b10#2 ++ 0b101#3 ++ cnd ++ na ++ low) = .instr (.call na))
  ∧ (∀ (c : Cond) (na : ProgAddr) (low : BitVec 4),
    decode (0b10#2 ++ 0b010#3 ++ c.code ++ na ++ low) = .instr (condJump c na))
  ∧ ∀ (d : Dst) (imm : Word) (x : BitVec 1), decode (0b11#2 ++ imm ++ x ++ d.code) = .instr (.ldi d imm)

/-- The words the decoder rejects are exactly the JP words with an undefined BRCH (R137), and the core's step on one,
whether or not its turn is listed (log 5), is the spec's fault UndefinedBranch (R317, decision D9, log 13). That the OP field 10 is JP is the spec's own decision
D1, from general knowledge (log 16). -/
def Obligations.OnlyUndefinedBranchWordsFault : Prop :=
  ∀ s : State, CoreMoves s → s.intPending = false →
    (step s = .fault .undefinedBranch ↔
      s.fetch.extractLsb' 21 2 = 0b10#2 ∧ s.fetch.extractLsb' 18 3 ≠ 0b100#3 ∧ s.fetch.extractLsb' 18 3 ≠ 0b101#3
        ∧ s.fetch.extractLsb' 18 3 ≠ 0b010#3)

/-- Words written out by the spec decode to the statements the spec gives them (R164, R213, R281, R282, R301, R330). The
JP and LDI words among them rest on the spec's own decisions D1 to D3 (the OP codes 10 and 11, the places of NA and ID:
log 16), as the spec says of them; the OP and RT words rest on its tables. -/
def Obligations.WordsOfTheSpecDecode : Prop :=
  decode 0x3293FB#23 = .instr (.rtAdd ⟨.m, .accA, .dpinc, 1#3, .rpdec, .mem, .klr⟩)
  ∧ decode 0x09811B#23 = .instr (.opXor ⟨.idb, .accA, .dpnop, 0#3, .rpdec, .a, .klr⟩)
  ∧ decode 0x501230#23 = .instr (.jmp 0x123#9) ∧ decode 0x540400#23 = .instr (.call 0x040#9)
  ∧ decode 0x4A3230#23 = .instr (.jsa0 0x123#9) ∧ decode 0x624681#23 = .instr (.ldi .a 0x1234#16)

/-! ### The step -/

/-- A step of the core runs the instruction that the word at PC decodes to; the listed turn it uses up is gone (the
order of turns is the model's own, log 5). -/
def Obligations.StepRunsTheDecodedInstruction : Prop :=
  ∀ (s : State) (i : Instr), decode s.fetch = .instr i → s.intPending = false →
    (s.turns = [] → step s = exec i s)
    ∧ ∀ rest, s.turns = .core :: rest → step s = exec i (withTurns s rest)

/-- An instruction placed at PC from outside is what the very next step runs (the placing is the model's, log 6). -/
def Obligations.PlacedInstructionRunsNext : Prop :=
  ∀ (s : State) (nbits w : Nat) (i : Instr), Memory.wf Config.iromSize s.irom → decodeTableWord nbits w = some i →
    step (s.withFetchWord nbits w) = exec i (s.withFetchWord nbits w)

/-- Every step keeps the invariant: the memories canonical and inside their sizes, the stack at most four deep, SR bits
6 to 2 zero (R54), an interrupt pending only while EI = 1 (R348), SOSR_BUSY equal to SORQ (R70) with the bit counts in
range, DRS set exactly while a host transfer is half done (R48; the note of it is the model's, log 36), and the SO pin high
while it is idle (R388; that the last bit of a word is held until the rising SCK edge is R386's, read so by the model, log
30). -/
def Obligations.EveryStepKeepsTheInvariant : Prop :=
  ∀ s t : State, s.Inv → step s = .next t → t.Inv

/-- The state after reset satisfies the invariant. -/
def Obligations.ResetStateSatisfiesTheInvariant : Prop := State.reset.Inv

/-- RST, in any state and whatever is pending, gives PC, the twelve flags, SR, DRQ, SORQ and the bit counts the value
zero, with INT_PENDING and SOSR_BUSY zero, the stack list empty and the SO pin high (R70, R422; INT_PENDING, SOSR_BUSY and
the list are derived or decided there); State.reset has the same values, and so reads SGN
as 8000H and drives P0 and P1 low (R421; the polarity of SGN is the spec's decision D14, log 20). The ROMs, INT_LEVEL and the level of SOEN/ are as they were (log 38). What R71
leaves unknown is a free value of Config in each register and RAM word, which nothing constrains: the form of these free
values is the model's choice (log 24; D16, D34, U14). -/
def Obligations.ResetLeavesTheListedValues : Prop :=
  (∀ (s : State) (rest : List Turn), s.turns = .rst :: rest →
    ∃ t, step s = .next t ∧ t.pc = 0#9 ∧ t.flagA = ⟨false, false, false, false, false, false⟩
      ∧ t.flagB = ⟨false, false, false, false, false, false⟩ ∧ t.sr = 0#16 ∧ t.drq = false ∧ t.sorq = false
      ∧ t.sicnt = 0 ∧ t.socnt = 0 ∧ t.intPending = false ∧ t.sosrBusy = false ∧ t.stk = [] ∧ t.soPin = true
      ∧ t.soLastBit = false ∧ t.soenLevel = s.soenLevel
      ∧ t.irom = s.irom ∧ t.drom = s.drom ∧ t.intLevel = s.intLevel ∧ t.turns = rest
      ∧ t.accA = Config.wordAfterReset .accA s.draws s.accA ∧ t.accB = Config.wordAfterReset .accB s.draws s.accB
      ∧ t.tr = Config.wordAfterReset .tr s.draws s.tr ∧ t.k = Config.wordAfterReset .k s.draws s.k
      ∧ t.l = Config.wordAfterReset .l s.draws s.l ∧ t.dp = Config.dpAfterReset s.draws s.dp
      ∧ t.rp = Config.rpAfterReset s.draws s.rp ∧ t.dr = Config.wordAfterReset .dr s.draws s.dr
      ∧ t.si = Config.wordAfterReset .si s.draws s.si ∧ t.sisr = Config.wordAfterReset .sisr s.draws s.sisr
      ∧ t.so = Config.wordAfterReset .so s.draws s.so ∧ t.sosr = Config.wordAfterReset .sosr s.draws s.sosr
      ∧ t.siack = Config.siackAfterReset s.draws s.siack ∧ t.soack = Config.soackAfterReset s.draws s.soack
      ∧ (Memory.wf Config.ramSize s.ram →
          ∀ a : RamAddr, t.ramWord a = Config.ramAfterReset s.draws a.toNat (s.ramWord a))
      ∧ t.draws = s.draws + 1)
  ∧ State.reset.pc = 0#9 ∧ State.reset.flagA = ⟨false, false, false, false, false, false⟩
  ∧ State.reset.flagB = ⟨false, false, false, false, false, false⟩ ∧ State.reset.sr = 0#16
  ∧ State.reset.drq = false ∧ State.reset.sorq = false ∧ State.reset.sicnt = 0 ∧ State.reset.socnt = 0
  ∧ State.reset.intPending = false ∧ State.reset.sosrBusy = false ∧ State.reset.stk = [] ∧ State.reset.soPin = true
  ∧ State.reset.sgn = 0x8000#16 ∧ State.reset.p0 = false ∧ State.reset.p1 = false

/-- No step writes either ROM: no instruction and no outside agent (R20, R28, R106). -/
def Obligations.NoStepWritesARom : Prop :=
  ∀ s t : State, step s = .next t → t.irom = s.irom ∧ t.drom = s.drom

/-- The only instruction that ever stops is an RT on an empty stack: every other instruction, in every state, answers
a next state (R340; that RT stops there is the spec's decision D6, log 12). -/
def Obligations.OnlyAReturnOnAnEmptyStackStops : Prop :=
  ∀ (i : Instr) (s : State), Stopped (exec i s) → (∃ fn f, i = rtInstr fn f) ∧ s.stk = []

/-! ### OP and RT: the move -/

/-- Each SRC code puts its register on the bus: seen through an OP that moves it to TR. For NON, a reserved data ROM
word and SIL in 8-bit mode the word is a free value of Config (logs 8, 10, 11). For SGN, that SA1 = 1 gives 7FFFH is the
spec's decision D14 (log 20). -/
def Obligations.EachSourceDrivesTheBus : Prop :=
  ∀ (fn : AluFn) (f : OpFields) (s : State), f.dst = .tr →
    ∃ t, exec (opInstr fn f) s = .next t ∧ t.tr = busValue f.src s

/-- The destinations TR, K, L, DR, SO and the acknowledge flags after an OP: each takes the bus when its code is given,
@KLR and @KLM take their second word from the data ROM and the high RAM block, and each keeps its value otherwise (R181,
R182, R186 to R201). The word that @KLR loads into L from a reserved data ROM address is a free value of Config, the
model's choice of form for the spec's decision D18 (log 10). -/
def Obligations.OpLatchesTheBusIntoItsDestination : Prop :=
  ∀ (fn : AluFn) (f : OpFields) (s : State),
    ∃ t, exec (opInstr fn f) s = .next t
      ∧ t.tr = (if f.dst = .tr then busValue f.src s else s.tr)
      ∧ t.k = (if f.dst = .k ∨ f.dst = .klr then busValue f.src s
          else if f.dst = .klm then highWordForK s else s.k)
      ∧ t.l = (if f.dst = .l ∨ f.dst = .klm then busValue f.src s
          else if f.dst = .klr then romWordForL s else s.l)
      ∧ t.dr = (if f.dst = .dr then busValue f.src s else s.dr)
      ∧ t.so = (if f.dst = .sol then busValue f.src s
          else if f.dst = .som then reversed (busValue f.src s) else s.so)
      ∧ t.soack = (if f.dst = .sol ∨ f.dst = .som then true else s.soack)
      ∧ t.siack = (if f.src = .sim ∨ f.src = .sil then false else s.siack)

/-- DST = @KLM: the high-block RAM word goes to K while the bus goes to L, whatever DP6 is (R198). -/
def Obligations.KlmLoadsKFromHighRamAndLFromTheBus : Prop :=
  ∀ (fn : AluFn) (f : OpFields) (s : State), f.dst = .klm →
    ∃ t, exec (opInstr fn f) s = .next t ∧ t.k = s.ramWord (1#1 ++ s.dp.extractLsb' 0 6) ∧ t.l = source f.src s

/-- RAM after an OP: with DST = @MEM the word at the DP of the start takes the bus, every other word reads as before;
with any other destination every word reads as before. With SRC = MEM the word is rewritten with itself, and an ALU with
P-select RAM sees the old word: that every read, the ALU's too, is of the state at the start is the spec's own decision D5
(R160, R201; log 15). The ROMs are as before (R20, R28). -/
def Obligations.OpStoresOnlyAtTheStartingDp : Prop :=
  ∀ (fn : AluFn) (f : OpFields) (s : State), Memory.wf Config.ramSize s.ram →
    ∃ t, exec (opInstr fn f) s = .next t
      ∧ (∀ a : RamAddr, t.ramWord a = if f.dst = .mem ∧ a = s.dp then source f.src s else s.ramWord a)
      ∧ (f.dst = .mem → f.src = .mem → t.ramWord s.dp = s.ramWord s.dp)
      ∧ (f.dst = .mem → fn = .add → f.psel = .ram → f.asl = .accA → t.accA = s.accA + s.ramWord s.dp)
      ∧ t.irom = s.irom ∧ t.drom = s.drom

/-- A transfer between the bus and DR asks for the master: SRC = DR and DST = @DR set RQM when DMA = 0 (DRQ as before)
and DRQ when DMA = 1 (RQM as before); DST = @DR takes the whole bus, DR itself if the source is DR or DRNF; SRC = DRNF
reads DR and signals nothing (R178, R179, R192). -/
def Obligations.DrTransfersAskForTheMaster : Prop :=
  ∀ (fn : AluFn) (f : OpFields) (s : State),
    ∃ t, exec (opInstr fn f) s = .next t
      ∧ (f.src = .dr ∨ f.dst = .dr →
          (s.dma = false → t.rqm = true ∧ t.drq = s.drq) ∧ (s.dma = true → t.rqm = s.rqm ∧ t.drq = true))
      ∧ (f.src = .dr ∨ f.src = .drnf → f.dst = .tr → t.tr = s.dr)
      ∧ (f.dst = .dr → t.dr = source f.src s ∧ (f.src = .dr ∨ f.src = .drnf → t.dr = s.dr))
      ∧ (f.src = .drnf → f.dst ≠ .dr → t.rqm = s.rqm ∧ t.drq = s.drq ∧ t.dr = s.dr)

/-- DST = @SOL and @SOM load SO in sending order and set SOACK: bit i of SO, the (i+1)-th to leave, is bit i of the bus
for @SOL and bit 15 - i for @SOM, in 8-bit mode as in 16-bit mode (R194, R195). -/
def Obligations.SerialDestinationsLoadSoInSendingOrder : Prop :=
  ∀ (fn : AluFn) (f : OpFields) (s : State), f.dst = .sol ∨ f.dst = .som →
    ∃ t, exec (opInstr fn f) s = .next t ∧ t.soack = true
      ∧ (f.dst = .sol → t.so = source f.src s)
      ∧ (f.dst = .som → ∀ i : Nat, i < 16 → t.so.getLsbD i = (source f.src s).getLsbD (15 - i))

/-- The status register and DRQ after an OP: @SR writes bits 14, 13, 11 to 7, 1 and 0 only; a transfer with DR (SRC = DR
or DST = @DR, not DRNF) sets RQM when DMA = 0 and DRQ when DMA = 1; nothing else touches them (R178, R179, R192,
R193). -/
def Obligations.OpUpdatesTheStatusRegister : Prop :=
  ∀ (fn : AluFn) (f : OpFields) (s : State),
    ∃ t, exec (opInstr fn f) s = .next t
      ∧ (∀ i : Nat, t.sr.getLsbD i =
          if i = 15 then ((f.src = .dr ∨ f.dst = .dr) ∧ s.dma = false) ∨ s.rqm = true
          else if f.dst = .sr ∧ (i = 14 ∨ i = 13 ∨ (7 ≤ i ∧ i ≤ 11) ∨ i = 1 ∨ i = 0) then (busValue f.src s).getLsbD i
          else s.sr.getLsbD i)
      ∧ t.drq = decide (((f.src = .dr ∨ f.dst = .dr) ∧ s.dma = true) ∨ s.drq = true)

/-- DST = @SR writes only the program's bits: `SR <- (SR & 907CH) | (idb & 6F83H)`, for a source that does not itself
signal a transfer (R193); a source DR adds its own RQM or DRQ. That the bus bits 11 to 7 are DMA, DRC, SOC, SIC and EI is
the spec's own decision D13 (log 18), and that SR bits 6 to 2 ignore the write is R54's (log 19). -/
def Obligations.SrWriteReachesOnlyTheProgramBits : Prop :=
  ∀ (fn : AluFn) (f : OpFields) (s : State), f.dst = .sr →
    ∃ t, exec (opInstr fn f) s = .next t
      ∧ (f.src ≠ .dr → t.sr = (s.sr &&& 0x907C#16) ||| (source f.src s &&& 0x6F83#16))
      ∧ t.usf1 = (source f.src s).getLsbD 14 ∧ t.usf0 = (source f.src s).getLsbD 13
      ∧ t.dma = (source f.src s).getLsbD 11 ∧ t.drc = (source f.src s).getLsbD 10
      ∧ t.soc = (source f.src s).getLsbD 9 ∧ t.sic = (source f.src s).getLsbD 8
      ∧ t.ei = (source f.src s).getLsbD 7 ∧ t.p1 = (source f.src s).getLsbD 1
      ∧ t.p0 = (source f.src s).getLsbD 0 ∧ t.drs = s.drs
      ∧ (f.src ≠ .dr → t.rqm = s.rqm) ∧ t.sr &&& 0x007C#16 = s.sr &&& 0x007C#16

/-- DP after an OP: the bus if DST = @DP, else both pointer fields at once, modulo 16 and with no carry between the
halves; a RAM read or a read of DP in the same instruction uses the old DP, the next instruction's the new one (R207). -/
def Obligations.OpUpdatesTheDataPointer : Prop :=
  ∀ (fn : AluFn) (f : OpFields) (s : State),
    ∃ t, exec (opInstr fn f) s = .next t
      ∧ (f.dst = .dp → t.dp = (source f.src s).extractLsb' 0 7)
      ∧ (f.dst ≠ .dp → t.dp.extractLsb' 4 3 = s.dp.extractLsb' 4 3 ^^^ f.dphm
          ∧ (t.dp.extractLsb' 0 4).toNat =
            match f.dpl with
            | .dpnop => s.dp.toNat % 16
            | .dpinc => (s.dp.toNat % 16 + 1) % 16
            | .dpdec => (s.dp.toNat % 16 + 15) % 16
            | .dpclr => 0)
      ∧ (f.dst = .tr → (f.src = .mem → t.tr = s.ramWord s.dp) ∧ (f.src = .dp → t.tr = s.dp.zeroExtend 16))
      ∧ ∀ g : OpFields, g.dst = .tr → g.src = .mem →
          ∃ u, exec (opInstr fn g) t = .next u ∧ u.tr = t.ramWord t.dp

/-- RP after an OP: the bus if DST = @RP, else decremented modulo 512 with RPDEC, else kept (R208, R209; the wrap from 0
to 1FFH is the spec's decision D8, log 14). -/
def Obligations.OpUpdatesTheRomPointer : Prop :=
  ∀ (fn : AluFn) (f : OpFields) (s : State),
    ∃ t, exec (opInstr fn f) s = .next t
      ∧ t.rp.toNat =
        if f.dst = .rp then (busValue f.src s).toNat % 512
        else if f.rpdcr = .rpdec then (s.rp.toNat + 511) % 512
        else s.rp.toNat

/-- What an OP leaves alone, and PC + 1 (R161): the stack, the serial registers the program cannot write, the pins, the
interrupt's state, the model's notes (but the draw index, which moves on by one, log 7). The notes siSpoilt, soSpoilt and
xferSpoilt (the model's, log 36) are set by exactly a write of SR that changes SIC, SOC, or DRC or DMA in the middle of
its word or transfer (R368, R379, R390; the places of these bits are the spec's decision D13, log 18), and nothing clears
them here. That PC + 1 wraps modulo 512 is the spec's decision D7 (log 14). -/
def Obligations.OpAdvancesAndLeavesTheRest : Prop :=
  ∀ (fn : AluFn) (f : OpFields) (s : State),
    ∃ t, exec (opInstr fn f) s = .next t
      ∧ t.pc.toNat = (s.pc.toNat + 1) % 512 ∧ t.stk = s.stk
      ∧ t.irom = s.irom ∧ t.drom = s.drom ∧ (f.dst ≠ .mem → t.ram = s.ram)
      ∧ t.si = s.si ∧ t.sisr = s.sisr ∧ t.sicnt = s.sicnt ∧ t.sosr = s.sosr ∧ t.socnt = s.socnt
      ∧ t.sosrBusy = s.sosrBusy ∧ t.sorq = s.sorq ∧ t.soPin = s.soPin ∧ t.soenLevel = s.soenLevel
      ∧ t.soLastBit = s.soLastBit ∧ t.intLevel = s.intLevel ∧ t.intPending = s.intPending
      ∧ t.draws = s.draws + 1 ∧ t.turns = s.turns ∧ t.dBus = s.dBus ∧ t.xferDir = s.xferDir
      ∧ (t.siSpoilt = true ↔ s.siSpoilt = true ∨ (f.dst = .sr ∧ ChangesSicInMidWord (busValue f.src s) s))
      ∧ (t.soSpoilt = true ↔ s.soSpoilt = true ∨ (f.dst = .sr ∧ ChangesSocInMidWord (busValue f.src s) s))
      ∧ (t.xferSpoilt = true ↔ s.xferSpoilt = true ∨ (f.dst = .sr ∧ ChangesTransferMode (busValue f.src s) s))

/-- An RT with an address on the stack does exactly what the OP of the same function and fields does, and then returns:
PC is the top of the stack and the stack loses it (R162, R349). -/
def Obligations.RtDoesTheSameAndReturns : Prop :=
  ∀ (fn : AluFn) (f : OpFields) (s : State) (v : ProgAddr) (rest : List ProgAddr), s.stk = v :: rest →
    ∃ t, exec (opInstr fn f) s = .next t ∧ exec (rtInstr fn f) s = .next { t with pc := v, stk := rest }

/-- An RT on an empty stack is the spec's fault StackUnderflow (R24, R341; the spec's decision D6, log 12). -/
def Obligations.RtOnAnEmptyStackFaults : Prop :=
  ∀ (fn : AluFn) (f : OpFields) (s : State), s.stk = [] → exec (rtInstr fn f) s = .fault .stackUnderflow

/-! ### OP and RT: the ALU -/

/-- The accumulators and both flag registers after an OP. A move to an accumulator writes it and no flag; an ALU
function other than NOP writes the selected accumulator and its flag register unless the move goes there; everything else
keeps its value (R168, R187, R188, R234, R235). The S1 that the logical and shift functions store is a free value of
Config, the model's choice of form for the spec's decision D15 (log 9). -/
def Obligations.OpWritesAccumulatorsAndFlags : Prop :=
  ∀ (fn : AluFn) (f : OpFields) (s : State),
    ∃ t, exec (opInstr fn f) s = .next t
      ∧ t.accA = (if f.dst = .a then busValue f.src s
          else if fn ≠ .nop ∧ f.asl = .accA then
            (alu fn ⟨s.accA, pInput f s, s.flagA, s.flagB.c, Config.indefiniteS1 s.draws⟩).r
          else s.accA)
      ∧ t.accB = (if f.dst = .b then busValue f.src s
          else if fn ≠ .nop ∧ f.asl = .accB then
            (alu fn ⟨s.accB, pInput f s, s.flagB, s.flagA.c, Config.indefiniteS1 s.draws⟩).r
          else s.accB)
      ∧ t.flagA = (if fn ≠ .nop ∧ f.asl = .accA ∧ f.dst ≠ .a then
            (alu fn ⟨s.accA, pInput f s, s.flagA, s.flagB.c, Config.indefiniteS1 s.draws⟩).flags
          else s.flagA)
      ∧ t.flagB = (if fn ≠ .nop ∧ f.asl = .accB ∧ f.dst ≠ .b then
            (alu fn ⟨s.accB, pInput f s, s.flagB, s.flagA.c, Config.indefiniteS1 s.draws⟩).flags
          else s.flagB)

/-- Move to the ALU's own accumulator: the move wins, the accumulator takes the bus and its flags do not change,
whatever the ALU field says; and a move to the other accumulator does not disturb the ALU (R169). -/
def Obligations.MoveToTheAluAccumulatorWins : Prop :=
  ∀ (fn : AluFn) (f : OpFields) (s : State),
    (f.dst = .a → ∃ t, exec (opInstr fn f) s = .next t ∧ t.accA = source f.src s ∧ t.flagA = s.flagA
      ∧ (f.asl = .accA → t.accB = s.accB ∧ t.flagB = s.flagB)
      ∧ (f.asl = .accB → t.accB = (alu fn (aluInputs f s)).r ∧ t.flagB = (alu fn (aluInputs f s)).flags))
    ∧ (f.dst = .b → ∃ t, exec (opInstr fn f) s = .next t ∧ t.accB = source f.src s ∧ t.flagB = s.flagB
      ∧ (f.asl = .accB → t.accA = s.accA ∧ t.flagA = s.flagA)
      ∧ (f.asl = .accA → t.accA = (alu fn (aluInputs f s)).r ∧ t.flagA = (alu fn (aluInputs f s)).flags))

/-- ADD, ADC and INC: the sum of the accumulator, the operand and the carry in, with the carry out of bit 15, and Z, S0
and OV0 of it (R240, R242, R244, R252, R255). -/
def Obligations.AdditionsGiveSumAndFlags : Prop :=
  ∀ (fn : AluFn) (f : OpFields) (s : State) (p : Word) (cin : Bool), NotMovedOver f → AdditionInputs fn f s p cin →
    ∃ t, exec (opInstr fn f) s = .next t
      ∧ (t.acc f.asl).toNat + 65536 * bit (t.flags f.asl).c = (s.acc f.asl).toNat + p.toNat + bit cin
      ∧ ((t.flags f.asl).z = true ↔ (t.acc f.asl).toNat = 0)
      ∧ ((t.flags f.asl).s0 = true ↔ 32768 ≤ (t.acc f.asl).toNat)
      ∧ ((t.flags f.asl).ov0 = true ↔ OutOfRange ((s.acc f.asl).toInt + p.toInt + bit cin))

/-- SUB, SBB and DEC: the difference with the borrow out of bit 15, and Z, S0 and OV0 of it (R239, R241, R243, R252,
R255). -/
def Obligations.SubtractionsGiveDifferenceAndFlags : Prop :=
  ∀ (fn : AluFn) (f : OpFields) (s : State) (p : Word) (bin : Bool), NotMovedOver f → SubtractionInputs fn f s p bin →
    ∃ t, exec (opInstr fn f) s = .next t
      ∧ (t.acc f.asl).toNat + p.toNat + bit bin = (s.acc f.asl).toNat + 65536 * bit (t.flags f.asl).c
      ∧ ((t.flags f.asl).z = true ↔ (t.acc f.asl).toNat = 0)
      ∧ ((t.flags f.asl).s0 = true ↔ 32768 ≤ (t.acc f.asl).toNat)
      ∧ ((t.flags f.asl).ov0 = true ↔ OutOfRange ((s.acc f.asl).toInt - p.toInt - bit bin))

/-- The nine logical and shift functions: result and carry, Z and S0 of the result, OV0 and OV1 reset (R236 to R238,
R245 to R251). S1 is a free value of Config, which nothing constrains (log 9). -/
def Obligations.LogicalAndShiftFunctionsGiveResultAndFlags : Prop :=
  ∀ (fn : AluFn) (f : OpFields) (s : State) (r : Word) (c : Bool), NotMovedOver f →
    logicalResult fn (s.acc f.asl) (pInput f s) (s.carryOther f.asl) = some (r, c) →
    ∃ t, exec (opInstr fn f) s = .next t ∧ t.acc f.asl = r
      ∧ (t.flags f.asl).c = c ∧ ((t.flags f.asl).z = true ↔ r.toNat = 0)
      ∧ ((t.flags f.asl).s0 = true ↔ 32768 ≤ r.toNat)
      ∧ (t.flags f.asl).ov0 = false ∧ (t.flags f.asl).ov1 = false
      ∧ (t.flags f.asl).s1 = Config.indefiniteS1 s.draws

/-- OV1 and S1 after an arithmetic function, from their values before and OV0', S0' (R253; the per-operation update is
the spec's decision D25, log 21). -/
def Obligations.ArithmeticUpdatesTheOverflowRun : Prop :=
  ∀ (fn : AluFn) (f : OpFields) (s : State), NotMovedOver f → IsArithmetic fn →
    ∃ t, exec (opInstr fn f) s = .next t
      ∧ ((s.flags f.asl).ov1 = false →
          (t.flags f.asl).ov1 = (t.flags f.asl).ov0 ∧ (t.flags f.asl).s1 = (t.flags f.asl).s0)
      ∧ ((s.flags f.asl).ov1 = true → (t.flags f.asl).s1 = (s.flags f.asl).s1
          ∧ ((t.flags f.asl).ov0 = false → (t.flags f.asl).ov1 = true)
          ∧ ((t.flags f.asl).ov0 = true →
              ((t.flags f.asl).ov1 = true ↔ (t.flags f.asl).s0 = (s.flags f.asl).s1)))

/-- The three-operation guarantee (R257): from OV1 = 0, after one, two or three arithmetic functions on one accumulator,
OV1 = 1 exactly when the exact sum does not fit in 16 bits, and then S1 = 1 exactly when it is too large, so that SGN is
the right limit; and four operations can be wrong. (The update that makes it so is the spec's decision D25, and the
polarity of SGN its decision D14: logs 21, 20.) -/
def Obligations.ThreeOperationOverflowGuarantee : Prop :=
  (∀ (ops : List (AluFn × Word × Bool)) (q : Word) (fl : Flags), fl.ov1 = false →
    (∀ o ∈ ops, IsArithmetic o.1) → 1 ≤ ops.length → ops.length ≤ 3 →
    ((aluRun ops (q, fl)).2.ov1 = true ↔ OutOfRange (exactSum q ops))
    ∧ (aluRun ops (q, fl)).1 = BitVec.ofInt 16 (exactSum q ops)
    ∧ (OutOfRange (exactSum q ops) →
        ((aluRun ops (q, fl)).2.s1 = true ↔ 32767 < exactSum q ops)
        ∧ ∀ s : State, s.flagA = (aluRun ops (q, fl)).2 →
            s.sgn = if 32767 < exactSum q ops then 0x7FFF#16 else 0x8000#16))
  ∧ ∃ (ops : List (AluFn × Word × Bool)) (q : Word) (fl : Flags), fl.ov1 = false ∧ (∀ o ∈ ops, IsArithmetic o.1)
      ∧ ops.length = 4 ∧ OutOfRange (exactSum q ops) ∧ (aluRun ops (q, fl)).2.ov1 = false

/-- 32-bit arithmetic on (high, low) pairs: ADD on the low words and ADC on the high words in the other accumulator give
the 32-bit sum, SUB and SBB the difference, and the high accumulator's C, OV0 and S0 describe the 32-bit result (R256
(b)). -/
def Obligations.CarryChainsGiveThirtyTwoBitArithmetic : Prop :=
  ∀ (ah al bh bl : Word) (flh fll : Flags) (c x : Bool),
    (let lo := alu .add ⟨al, bl, fll, c, x⟩
     let hi := alu .adc ⟨ah, bh, flh, lo.flags.c, x⟩
     (hi.r ++ lo.r : BitVec 32) = (ah ++ al : BitVec 32) + (bh ++ bl : BitVec 32)
      ∧ (hi.flags.c = true ↔ 2 ^ 32 ≤ (ah ++ al : BitVec 32).toNat + (bh ++ bl : BitVec 32).toNat)
      ∧ (hi.flags.ov0 = true ↔
          (ah ++ al : BitVec 32).toInt + (bh ++ bl : BitVec 32).toInt < -2 ^ 31
            ∨ 2 ^ 31 ≤ (ah ++ al : BitVec 32).toInt + (bh ++ bl : BitVec 32).toInt)
      ∧ hi.flags.s0 = (hi.r ++ lo.r : BitVec 32).msb)
    ∧ (let lo := alu .sub ⟨al, bl, fll, c, x⟩
       let hi := alu .sbb ⟨ah, bh, flh, lo.flags.c, x⟩
       (hi.r ++ lo.r : BitVec 32) = (ah ++ al : BitVec 32) - (bh ++ bl : BitVec 32)
        ∧ (hi.flags.c = true ↔ (ah ++ al : BitVec 32).toNat < (bh ++ bl : BitVec 32).toNat)
        ∧ (hi.flags.ov0 = true ↔
            (ah ++ al : BitVec 32).toInt - (bh ++ bl : BitVec 32).toInt < -2 ^ 31
              ∨ 2 ^ 31 ≤ (ah ++ al : BitVec 32).toInt - (bh ++ bl : BitVec 32).toInt)
        ∧ hi.flags.s0 = (hi.r ++ lo.r : BitVec 32).msb)

/-- The multiplier: 8000H times 8000H gives M = 8000H and N = 0000H, and for every other pair of inputs M:N is exactly
twice the signed product; whatever the pair, nothing signals it: an instruction without an ALU function completes and
leaves all twelve flags (R232). -/
def Obligations.ProductIsExactButForTheMostNegativePair : Prop :=
  ∀ s : State,
    (s.k = 0x8000#16 ∧ s.l = 0x8000#16 → s.m = 0x8000#16 ∧ s.n = 0x0000#16)
    ∧ (¬(s.k = 0x8000#16 ∧ s.l = 0x8000#16) → (s.m ++ s.n : BitVec 32).toInt = 2 * (s.k.toInt * s.l.toInt))
    ∧ s.n.getLsbD 0 = false
    ∧ ∀ f : OpFields, ∃ t, exec (.opNop f) s = .next t ∧ t.flagA = s.flagA ∧ t.flagB = s.flagB

/-- An OP that loads K or L (@K, @L, @KLR, @KLM) and adds M or N uses the product of the OLD K and L, and the OP after it
that adds M or N the product of the new ones, whichever accumulators they work on (R165, R166, R196 to R199, R233, R430;
a reserved data ROM word loaded by @KLR is a free value of Config, D18, log 10). -/
def Obligations.NewProductIsSeenByTheNextInstruction : Prop :=
  ∀ (f : OpFields) (s : State), f.psel = .m ∨ f.psel = .n → f.dst = .k ∨ f.dst = .l ∨ f.dst = .klr ∨ f.dst = .klm →
    ∃ t, exec (.opAdd f) s = .next t
      ∧ t.k = (if f.dst = .k ∨ f.dst = .klr then busValue f.src s
          else if f.dst = .klm then highWordForK s else s.k)
      ∧ t.l = (if f.dst = .l ∨ f.dst = .klm then busValue f.src s
          else if f.dst = .klr then romWordForL s else s.l)
      ∧ t.acc f.asl = s.acc f.asl + pInput f s
      ∧ ∀ g : OpFields, NotMovedOver g →
          (g.psel = .m → ∃ u, exec (.opAdd g) t = .next u
            ∧ u.acc g.asl = t.acc g.asl + BitVec.ofInt 16 (2 * t.k.toInt * t.l.toInt / 65536))
          ∧ (g.psel = .n → ∃ u, exec (.opAdd g) t = .next u
            ∧ u.acc g.asl = t.acc g.asl + BitVec.ofInt 16 (2 * t.k.toInt * t.l.toInt))

/-! ### JP -/

/-- JMP writes PC and nothing else (R281). -/
def Obligations.JmpWritesOnlyPc : Prop :=
  ∀ (na : ProgAddr) (s : State), exec (.jmp na) s = .next { s with pc := na }

/-- CALL pushes PC + 1, drops the oldest address when four are held, goes to NA and changes nothing else (R24, R282). That PC + 1
wraps modulo 512 is the spec's decision D7 (log 14). -/
def Obligations.CallPushesTheReturnAddress : Prop :=
  ∀ (na : ProgAddr) (s : State),
    exec (.call na) s = .next { s with pc := na, stk := BitVec.ofNat 9 (s.pc.toNat + 1) :: s.stk.take 3 }

/-- A CALL and the RT that meets its address come back to the instruction after the CALL, the stack as it was, if it held
at most three addresses (R162, R282). That PC + 1 wraps modulo 512 is the spec's decision D7 (log 14). -/
def Obligations.ReturnComesBackAfterTheCall : Prop :=
  ∀ (na : ProgAddr) (fn : AluFn) (f : OpFields) (s t : State), s.stk.length ≤ 3 → exec (.call na) s = .next t →
    ∃ u, exec (rtInstr fn f) t = .next u ∧ u.pc.toNat = (s.pc.toNat + 1) % 512 ∧ u.stk = s.stk

/-- Each of the 32 conditional jumps: NA if its condition holds in the state at its start, else PC + 1, and nothing
else changes (R283 to R316). That PC + 1 wraps modulo 512 is the spec's decision D7 (log 14). -/
def Obligations.ConditionalJumpsTestTheirCondition : Prop :=
  ∀ (c : Cond) (na : ProgAddr) (s : State),
    (conditionHolds c s → exec (condJump c na) s = .next { s with pc := na })
    ∧ (¬conditionHolds c s → exec (condJump c na) s = .next { s with pc := s.pc + 1#9 })

/-! ### LDI -/

/-- LDI to each of the sixteen destinations: the immediate to the register its code names, PC + 1, and every other
register, flag, pointer, stack level, port register and RAM word as it was (R330 to R332). That PC + 1 wraps modulo 512 is
the spec's decision D7 (log 14); a reserved data ROM word loaded by @KLR is a free value of Config, the model's choice of
form for its decision D18 (log 10); the places of DMA, DRC, SOC, SIC and EI in SR are its decision D13 (log 18). The notes
siSpoilt, soSpoilt and xferSpoilt (the model's, log 36) are set by exactly an LDI to SR that changes SIC, SOC, or DRC or
DMA in the middle of its word or transfer (R368, R379, R390). -/
def Obligations.LdiLatchesTheImmediate : Prop :=
  ∀ (d : Dst) (v : Word) (s : State), Memory.wf Config.ramSize s.ram →
    ∃ t, exec (.ldi d v) s = .next t ∧ t.pc.toNat = (s.pc.toNat + 1) % 512
      ∧ t.accA = (if d = .a then v else s.accA) ∧ t.accB = (if d = .b then v else s.accB)
      ∧ t.flagA = s.flagA ∧ t.flagB = s.flagB ∧ t.tr = (if d = .tr then v else s.tr)
      ∧ t.dp.toNat = (if d = .dp then v.toNat % 128 else s.dp.toNat)
      ∧ t.rp.toNat = (if d = .rp then v.toNat % 512 else s.rp.toNat)
      ∧ t.dr = (if d = .dr then v else s.dr)
      ∧ t.sr = (if d = .sr then (s.sr &&& 0x907C#16) ||| (v &&& 0x6F83#16)
          else if d = .dr ∧ s.dma = false then s.sr ||| 0x8000#16 else s.sr)
      ∧ t.drq = decide ((d = .dr ∧ s.dma = true) ∨ s.drq = true)
      ∧ t.so = (if d = .sol then v else if d = .som then reversed v else s.so)
      ∧ t.soack = decide (d = .sol ∨ d = .som ∨ s.soack = true)
      ∧ t.k = (if d = .k ∨ d = .klr then v else if d = .klm then highWordForK s else s.k)
      ∧ t.l = (if d = .l ∨ d = .klm then v else if d = .klr then romWordForL s else s.l)
      ∧ (∀ a : RamAddr, t.ramWord a = if d = .mem ∧ a = s.dp then v else s.ramWord a)
      ∧ t.irom = s.irom ∧ t.drom = s.drom ∧ t.stk = s.stk ∧ t.si = s.si ∧ t.sisr = s.sisr ∧ t.sicnt = s.sicnt
      ∧ t.siack = s.siack ∧ t.sosr = s.sosr ∧ t.socnt = s.socnt ∧ t.sosrBusy = s.sosrBusy ∧ t.sorq = s.sorq
      ∧ t.soPin = s.soPin ∧ t.intLevel = s.intLevel ∧ t.intPending = s.intPending ∧ t.turns = s.turns
      ∧ t.dBus = s.dBus ∧ t.xferDir = s.xferDir ∧ t.soenLevel = s.soenLevel ∧ t.soLastBit = s.soLastBit
      ∧ (t.siSpoilt = true ↔ s.siSpoilt = true ∨ (d = .sr ∧ ChangesSicInMidWord v s))
      ∧ (t.soSpoilt = true ↔ s.soSpoilt = true ∨ (d = .sr ∧ ChangesSocInMidWord v s))
      ∧ (t.xferSpoilt = true ↔ s.xferSpoilt = true ∨ (d = .sr ∧ ChangesTransferMode v s))

/-! ### The interrupt -/

/-- A step of the core with an interrupt pending is the entry and runs no instruction, whether or not the core's turn is
listed: PC is pushed, PC is 100H, EI and INT_PENDING are 0, nothing else changes but that a listed turn is used up (R345,
R346; one step at the next boundary and the pushed address are the spec's decisions D11 and D26, log 22; the order of
turns is the model's own, log 5). -/
def Obligations.PendingInterruptIsTaken : Prop :=
  ∀ s : State, s.intPending = true →
    (s.turns = [] → step s = .next
      { s with pc := 0x100#9, stk := s.pc :: s.stk.take 3, sr := s.sr &&& 0xFF7F#16, intPending := false })
    ∧ ∀ rest, s.turns = .core :: rest → step s = .next
      { s with
        turns := rest, pc := 0x100#9, stk := s.pc :: s.stk.take 3, sr := s.sr &&& 0xFF7F#16, intPending := false }

/-- A rising edge on INT is accepted only while EI = 1 and otherwise forgotten; it needs the pin low, a falling edge
needs it high and accepts nothing; a turn that is not enabled is refused (R343). -/
def Obligations.InterruptEdgeIsAcceptedOnlyWhileEnabled : Prop :=
  ∀ (s : State) (rest : List Turn),
    (s.turns = .intRise :: rest →
      (s.intLevel = true → step s = .refused .turnNotEnabled)
      ∧ (s.intLevel = false → s.ei = true →
          step s = .next { s with turns := rest, intLevel := true, intPending := true })
      ∧ (s.intLevel = false → s.ei = false → step s = .next { s with turns := rest, intLevel := true }))
    ∧ (s.turns = .intFall :: rest →
      (s.intLevel = false → step s = .refused .turnNotEnabled)
      ∧ (s.intLevel = true → step s = .next { s with turns := rest, intLevel := false }))

/-- EI is the only mask: 0 after reset, set only by a step of the core that runs an instruction writing SR with bit 7 of
the value 1, and cleared only by a step of the core that runs one writing SR with that bit 0, by the core's interrupt
entry, or by reset; an INT edge becomes pending exactly when EI = 1 (R344). -/
def Obligations.EnableInterruptChangesOnlyAsListed : Prop :=
  State.reset.ei = false
  ∧ (∀ s t : State, step s = .next t → s.ei ≠ t.ei →
    (t.ei = true → CoreMoves s ∧ s.intPending = false
        ∧ ∃ i v, decode s.fetch = .instr i ∧ SrWriteValue i s v ∧ v.getLsbD 7 = true)
    ∧ (t.ei = false →
        (CoreMoves s ∧ s.intPending = false
          ∧ ∃ i v, decode s.fetch = .instr i ∧ SrWriteValue i s v ∧ v.getLsbD 7 = false)
        ∨ (CoreMoves s ∧ s.intPending = true) ∨ ∃ rest, s.turns = .rst :: rest))
  ∧ ∀ s : State, s.intPending = false → s.intLevel = false → ∃ t, intRise s = .next t ∧ t.intPending = s.ei

/-- What belongs to the hardware is out of the program's reach: no instruction changes DRS, SI, the shift registers and
counts, SOSR_BUSY, SORQ, the SO pin, the INT state or a ROM, none clears RQM or DRQ, none sets SIACK, none clears SOACK
(R48, R352). -/
def Obligations.ProgramCannotWriteHardwareState : Prop :=
  ∀ (i : Instr) (s t : State), exec i s = .next t →
    t.drs = s.drs ∧ t.si = s.si ∧ t.sisr = s.sisr ∧ t.sicnt = s.sicnt ∧ t.sosr = s.sosr ∧ t.socnt = s.socnt
    ∧ t.sosrBusy = s.sosrBusy ∧ t.sorq = s.sorq ∧ t.soPin = s.soPin ∧ t.soenLevel = s.soenLevel
    ∧ t.soLastBit = s.soLastBit ∧ t.intLevel = s.intLevel ∧ t.intPending = s.intPending ∧ t.irom = s.irom ∧ t.drom = s.drom
    ∧ (s.rqm = true → t.rqm = true) ∧ (s.drq = true → t.drq = true)
    ∧ (t.siack = true → s.siack = true) ∧ (s.soack = true → t.soack = true)

/-! ### The ports -/

/-- A 16-bit word written by the host, low byte then high byte, by CS/ and A0 or, in DMA mode, by DACK/: after the first
byte DRS = 1 and RQM and DRQ are as before; after the second DR is the word, DRS = 0, and RQM falls if DMA = 0, DRQ if
DMA = 1, which with DACK/ is the second assertion (R363, R367; that RQM falls at the second byte is the spec's decision
D12, log 26). -/
def Obligations.HostWritesASixteenBitWord : Prop :=
  ∀ (s : State) (c d : BusCycle) (rest : List Turn),
    WritesDr c s → WritesDr d s → s.turns = .bus c :: .bus d :: rest → s.drc = false → s.drs = false →
    s.xferSpoilt = false →
    ∃ t u, step s = .next t ∧ step t = .next u
      ∧ t.dr = s.dr.extractLsb' 8 8 ++ c.data ∧ t.drs = true ∧ t.rqm = s.rqm ∧ t.drq = s.drq
      ∧ u.dr = d.data ++ c.data ∧ u.drs = false ∧ (s.dma = false → u.rqm = false ∧ u.drq = s.drq)
      ∧ (s.dma = true → u.rqm = s.rqm ∧ u.drq = false)
      ∧ u.sr &&& 0x6FFF#16 = s.sr &&& 0x6FFF#16 ∧ u.turns = rest

/-- A 16-bit word read by the host, by CS/ and A0 or, in DMA mode, by DACK/: the low byte, then the high byte, DR
unchanged, the handshake as in a write (R364, R367; decision D12, log 26; `dBus` is the model's note of the byte, log
27). -/
def Obligations.HostReadsASixteenBitWord : Prop :=
  ∀ (s : State) (c d : BusCycle) (rest : List Turn),
    ReadsDr c s → ReadsDr d s → s.turns = .bus c :: .bus d :: rest → s.drc = false → s.drs = false →
    s.xferSpoilt = false →
    ∃ t u, step s = .next t ∧ step t = .next u
      ∧ t.dBus = some (s.dr.extractLsb' 0 8) ∧ t.drs = true ∧ t.rqm = s.rqm ∧ t.drq = s.drq
      ∧ u.dBus = some (s.dr.extractLsb' 8 8) ∧ u.dr = s.dr ∧ u.drs = false
      ∧ (s.dma = false → u.rqm = false ∧ u.drq = s.drq) ∧ (s.dma = true → u.rqm = s.rqm ∧ u.drq = false)
      ∧ u.sr &&& 0x6FFF#16 = s.sr &&& 0x6FFF#16 ∧ u.turns = rest

/-- In 8-bit mode one byte completes the transfer, by CS/ and A0 or, in DMA mode, by DACK/: a write goes to DR[7:0] and
leaves DR[15:8] (the spec's decision D27, log 26), a read gives DR[7:0] (the model's note of it, log 27), and RQM or DRQ
falls at once (R363, R364, R367). -/
def Obligations.HostTransfersOneByteInEightBitMode : Prop :=
  ∀ (s : State) (c : BusCycle) (rest : List Turn),
    s.turns = .bus c :: rest → s.drc = true → s.drs = false → s.xferSpoilt = false →
    (WritesDr c s →
      ∃ t, step s = .next t ∧ t.dr = s.dr.extractLsb' 8 8 ++ c.data ∧ t.drs = false
        ∧ (s.dma = false → t.rqm = false ∧ t.drq = s.drq) ∧ (s.dma = true → t.rqm = s.rqm ∧ t.drq = false))
    ∧ (ReadsDr c s →
      ∃ t, step s = .next t ∧ t.dBus = some (s.dr.extractLsb' 0 8) ∧ t.dr = s.dr ∧ t.drs = false
        ∧ (s.dma = false → t.rqm = false ∧ t.drq = s.drq) ∧ (s.dma = true → t.rqm = s.rqm ∧ t.drq = false))

/-- The host reads the high byte of SR: RQM in D7 down to SIC in D0, and no state of the chip changes (R362; the places
of the fields are the spec's decision D13, log 18; `dBus` is the model's note of the byte, log 27). -/
def Obligations.HostReadsTheStatusByte : Prop :=
  ∀ (s : State) (rest : List Turn), s.turns = .bus statusCycle :: rest →
    ∃ b : Byte, step s = .next { s with turns := rest, dBus := some b }
      ∧ b.getLsbD 7 = s.rqm ∧ b.getLsbD 6 = s.usf1 ∧ b.getLsbD 5 = s.usf0 ∧ b.getLsbD 4 = s.drs
      ∧ b.getLsbD 3 = s.dma ∧ b.getLsbD 2 = s.drc ∧ b.getLsbD 1 = s.soc ∧ b.getLsbD 0 = s.sic

/-- Table 3.1, row by row: a cycle with CS/ high (and DACK/ high), or with RD/ and WR/ both high, changes nothing but the
note of the bus (log 27); with CS/ and A0 low a write takes the byte into the half of DR that DRC and DRS name and leaves
the other half (with DRC = 1 that is the spec's decision D27, log 26), and a read gives that half and leaves DR; with A0 high a read gives the high byte of SR and changes nothing; a write with A0 high and
RD/ and WR/ both low are PROHIBITED and refused. In DMA mode a cycle with DACK/ low is, at every level of its other pins,
the same cycle with CS/ and A0 low; with DMA = 0 its transfer is refused. Refused too are a transfer whose first byte
went the other way, and one after the program changed DRC or DMA between the bytes (R361 to R364, R367, R368; the
refusals, for what R368 keeps outside the guarantee, are the model's, logs 25 and 36). -/
def Obligations.BusCyclesFollowTheTable : Prop :=
  ∀ (c : BusCycle) (s : State) (rest : List Turn), s.turns = .bus c :: rest →
    (c.cs = true ∧ c.dack = true ∨ c.wr = true ∧ c.rd = true → step s = .next { s with turns := rest, dBus := none })
    ∧ (c.cs = false ∧ c.dack = true ∧ c.a0 = false ∧ c.wr = false ∧ c.rd = true ∧ s.xferSpoilt = false
        ∧ (s.drs = true → s.xferDir ≠ some .hostReads) →
        ∃ t, step s = .next t ∧ t.dBus = none ∧ t.turns = rest
          ∧ t.dr = if s.drc = false ∧ s.drs = true then c.data ++ s.dr.extractLsb' 0 8
              else s.dr.extractLsb' 8 8 ++ c.data)
    ∧ (c.cs = false ∧ c.dack = true ∧ c.a0 = false ∧ c.wr = true ∧ c.rd = false ∧ s.xferSpoilt = false
        ∧ (s.drs = true → s.xferDir ≠ some .hostWrites) →
        ∃ t, step s = .next t ∧ t.dr = s.dr ∧ t.turns = rest
          ∧ t.dBus = some (if s.drc = false ∧ s.drs = true then s.dr.extractLsb' 8 8 else s.dr.extractLsb' 0 8))
    ∧ (c.cs = false ∧ c.dack = true ∧ c.a0 = true ∧ c.wr = true ∧ c.rd = false →
        step s = .next { s with turns := rest, dBus := some (s.sr.extractLsb' 8 8) })
    ∧ (c.cs = false ∧ c.dack = true ∧ c.a0 = true ∧ c.wr = false ∧ c.rd = true →
        step s = .refused .prohibitedBusCycle)
    ∧ ((c.cs = false ∨ c.dack = false) ∧ c.wr = false ∧ c.rd = false → step s = .refused .prohibitedBusCycle)
    ∧ (c.dack = false ∧ s.dma = true → step s = step { s with turns := .bus (byChipSelect c) :: rest })
    ∧ (c.dack = false ∧ c.wr ≠ c.rd ∧ s.dma = false → step s = .refused .dackOutsideDma)
    ∧ (AccessesDr c s ∧ c.wr ≠ c.rd ∧ s.xferSpoilt = true → step s = .refused .transferModeChanged)
    ∧ (AccessesDr c s ∧ c.wr ≠ c.rd ∧ s.xferSpoilt = false ∧ s.drs = true
        ∧ s.xferDir = some (if c.wr = true then .hostWrites else .hostReads) → step s = .refused .mixedTransfer)
    ∧ (c.dack = false ∧ c.wr = false ∧ c.rd = true ∧ s.dma = true ∧ s.drc = true ∧ s.drs = false ∧ s.xferSpoilt = false →
        ∃ t, step s = .next t ∧ t.dr = s.dr.extractLsb' 8 8 ++ c.data ∧ t.drq = false)
    ∧ (c.dack = false ∧ c.wr = true ∧ c.rd = false ∧ s.dma = true ∧ s.drc = true ∧ s.drs = false ∧ s.xferSpoilt = false →
        ∃ t, step s = .next t ∧ t.dBus = some (s.dr.extractLsb' 0 8) ∧ t.drq = false)

/-- The host reaches nothing but DR, RQM, DRS and DRQ (R360): whatever its cycle, the program counter, the stack, the
memories, the working registers, the flags, the other bits of SR, the serial ports and the interrupt's state are as
before. -/
def Obligations.HostReachesOnlyThePort : Prop :=
  ∀ (c : BusCycle) (s t : State), takeTurn (.bus c) s = .next t →
    t.sr &&& 0x6FFF#16 = s.sr &&& 0x6FFF#16
    ∧ t = { s with sr := t.sr, dr := t.dr, drq := t.drq, dBus := t.dBus, xferDir := t.xferDir }

/-- One enabled rising SCK edge shifts one bit in at bit 0; the last bit of the word (the eighth if SIC = 1, else the
sixteenth) clears the count, sets SIACK and latches the word into SI; before it nothing of the input port but SISR and
SICNT changes (R376, with the latch of R377, decision D28, log 28). An edge with SIEN/ high changes nothing of the input
port (R375; that SIEN/ enables when low is log 31's). Either edge lets go of the last bit of an output word, held on the
SO pin until then (R386, R388; the model's reading, log 30). After the program has changed SIC in the middle of a word an
enabled edge is refused (R379; the refusal is the model's, logs 28 and 36). -/
def Obligations.SerialInputShiftsOneBit : Prop :=
  ∀ (s : State) (b : Bool) (rest : List Turn),
    (s.turns = .sckRise true b :: rest →
      step s = .next { s with turns := rest, soPin := s.soPin || s.soLastBit, soLastBit := false })
    ∧ (s.turns = .sckRise false b :: rest → s.siSpoilt = true → step s = .refused .serialInputModeChanged)
    ∧ (s.turns = .sckRise false b :: rest → s.siSpoilt = false →
      ∃ t, step s = .next t ∧ t.sisr = (s.sisr <<< 1) ||| (if b = true then 1#16 else 0#16) ∧ t.turns = rest
        ∧ t.soPin = (s.soPin || s.soLastBit) ∧ t.soLastBit = false
        ∧ (s.sicnt + 1 < (if s.sic = true then 8 else 16) →
            t = { s with turns := rest, sisr := t.sisr, sicnt := s.sicnt + 1, soPin := t.soPin, soLastBit := false })
        ∧ ((if s.sic = true then 8 else 16) ≤ s.sicnt + 1 →
            t = { s with
                turns := rest, sisr := t.sisr, sicnt := 0, siack := true, si := t.si, soPin := t.soPin,
                soLastBit := false }
            ∧ (s.sic = false → t.si = t.sisr) ∧ (s.sic = true → t.si.toNat = t.sisr.toNat % 256)))

/-- A whole serial word: with SIC = 0 and no bit counted, sixteen enabled edges carrying w[15] first leave SI = w, SIACK
= 1 and the count 0; with SIC = 1 eight edges carrying b[7] first leave SI = b with zeros above (R377; where the zeros
arise is the spec's decision D28, log 28; SIEN/ low enables, log 31). -/
def Obligations.SerialInputDeliversTheWord : Prop :=
  (∀ (s : State) (w : Word), s.sic = false → s.sicnt = 0 → s.siSpoilt = false →
    s.turns = serialInTurns 16 (fun i => w.getLsbD (15 - i)) →
    ∃ t, Host.Core.run Sys2Proof.core 16 s = .next t ∧ t.si = w ∧ t.siack = true ∧ t.sicnt = 0 ∧ t.turns = [])
  ∧ ∀ (s : State) (b : Byte), s.sic = true → s.sicnt = 0 → s.siSpoilt = false →
    s.turns = serialInTurns 8 (fun i => b.getLsbD (7 - i)) →
    ∃ t, Host.Core.run Sys2Proof.core 8 s = .next t ∧ t.si.toNat = b.toNat ∧ t.siack = true ∧ t.sicnt = 0
      ∧ t.turns = []

/-- The transfer to the output shift register: with a word waiting and the register free it takes SO, clears SOACK, raises
SORQ and starts the count; otherwise it is not enabled (R385; a step of its own by the spec's decision D35, log 29). -/
def Obligations.SerialOutputLoadsTheShiftRegister : Prop :=
  ∀ (s : State) (rest : List Turn), s.turns = .soLoad :: rest →
    (s.soack = true → s.sosrBusy = false →
      step s = .next { s with turns := rest, sosr := s.so, sosrBusy := true, socnt := 0, soack := false, sorq := true })
    ∧ (s.soack = false ∨ s.sosrBusy = true → step s = .refused .turnNotEnabled)

/-- One falling SCK edge with SORQ = 1 and SOEN/ low puts SOSR[SOCNT] on the pin and counts it; the last bit of the word
loads the waiting word at once or drops SORQ (R386, R387; the reload in the same step is the spec's decision D35, log 29),
and in the second case is noted as the bit to hold (log 30). An edge with SORQ = 0 or SOEN/ high leaves the pin high and
changes nothing else of the port (R388; that SOEN/ is a level of State is log 38's). After the program has changed SOC in
the middle of a word an edge that would send a bit is refused (R390; the refusal is the model's, logs 29 and 36). -/
def Obligations.SerialOutputShiftsOneBit : Prop :=
  ∀ (s : State) (rest : List Turn), s.turns = .sckFall :: rest →
    (s.sorq = true → s.soenLevel = false → s.soSpoilt = false →
      (s.socnt + 1 < (if s.soc = true then 8 else 16) →
        step s = .next
          { s with turns := rest, soPin := s.sosr.getLsbD s.socnt, socnt := s.socnt + 1, soLastBit := false })
      ∧ ((if s.soc = true then 8 else 16) ≤ s.socnt + 1 → s.soack = true →
        step s = .next
          { s with
            turns := rest, soPin := s.sosr.getLsbD s.socnt, socnt := 0, sosr := s.so, soack := false,
            soLastBit := false })
      ∧ ((if s.soc = true then 8 else 16) ≤ s.socnt + 1 → s.soack = false →
        step s = .next
          { s with
            turns := rest, soPin := s.sosr.getLsbD s.socnt, socnt := 0, sosrBusy := false, sorq := false,
            soLastBit := true }))
    ∧ (s.sorq = false ∨ s.soenLevel = true → step s = .next { s with turns := rest, soPin := true, soLastBit := false })
    ∧ (s.sorq = true → s.soenLevel = false → s.soSpoilt = true → step s = .refused .serialOutputModeChanged)

/-- The order of the bits on the pin: from the start of a word in the shift register, with SOEN/ low, the (k+1)-th falling
edge puts SOSR[k] on the pin, in 16-bit mode for k to 15 and in 8-bit mode for k to 7, whether or not rising edges stand
between the falling ones; and the rising edge after each bit that is not the last leaves it there (R386, R389, R390; the
level of SOEN/ is State's, log 38). -/
def Obligations.SerialOutputSendsBitsInOrder : Prop :=
  ∀ (s : State) (k : Nat), s.sorq = true → s.soenLevel = false → s.soSpoilt = false → s.socnt = 0 →
    k < (if s.soc = true then 8 else 16) →
    (s.turns = List.replicate (k + 1) .sckFall →
      ∃ t, Host.Core.run Sys2Proof.core (k + 1) s = .next t ∧ t.soPin = s.sosr.getLsbD k ∧ t.turns = [])
    ∧ (s.turns = serialOutTurns k →
      ∃ t, Host.Core.run Sys2Proof.core (2 * k + 1) s = .next t ∧ t.soPin = s.sosr.getLsbD k ∧ t.turns = [])
    ∧ (s.turns = serialOutTurns k ++ [.sckRise true false] → k + 1 < (if s.soc = true then 8 else 16) →
      ∃ t, Host.Core.run Sys2Proof.core (2 * k + 2) s = .next t ∧ t.soPin = s.sosr.getLsbD k ∧ t.turns = [])

/-! ### The assembler -/

/-- The parts of an OP/RT statement may be written in any order: the same parts assemble to the same instruction (R141,
R145). A statement that names a part twice assembles to nothing in either order (the model's choice, log 34). -/
def Obligations.StatementPartsMayStandInAnyOrder : Prop :=
  ∀ ps qs : List OpPart, ps.Perm qs → assembleOp ps = assembleOp qs

/-! ### The SO pin -/

/-- The SO pin is held high while SOEN/ is high, whether SORQ is 1 or 0, and while SORQ = 0 but for the last bit of a
word, which is held until the rising SCK edge (R386, R388): so it is after reset, and every step of every agent keeps it
so. SOEN/ going high raises the pin at once; and the pin changes at no other step than an SCK edge, SOEN/ going high or
a reset. (How R386's hold and R388's level go together is the model's reading, log 30.) -/
def Obligations.SerialOutputIdlesHigh : Prop :=
  State.reset.PinIdlesHigh
  ∧ (∀ s t : State, s.PinIdlesHigh → step s = .next t → t.PinIdlesHigh)
  ∧ (∀ (s : State) (level : Bool) (rest : List Turn), s.turns = .soen level :: rest →
      (level = true → step s = .next { s with turns := rest, soenLevel := true, soPin := true, soLastBit := false })
      ∧ (level = false → step s = .next { s with turns := rest, soenLevel := false }))
  ∧ ∀ s t : State, step s = .next t → t.soPin ≠ s.soPin →
      ∃ rest, s.turns = .sckFall :: rest ∨ (∃ sien b, s.turns = .sckRise sien b :: rest) ∨ s.turns = .soen true :: rest
        ∨ s.turns = .rst :: rest
end

