-- ==== Sys2Proof/Laws/Alu.lean ====
section
/-! SUPPORT. What the shared operations of the ALU, the multiplier, the ROM output and the serial shifters can do, said
once in integers, so that no later proof unfolds their bit vectors. -/

namespace Sys2Proof.Machine

/-! ### Flags -/

theorem signFlag_iff (r : Word) : signFlag r = true ↔ 32768 ≤ r.toNat := by
  simp [signFlag, BitVec.msb_eq_decide]

theorem zeroFlag_iff (r : Word) : zeroFlag r = true ↔ r.toNat = 0 := by
  simp [zeroFlag, BitVec.toNat_eq]

theorem overflows_iff (x : Int) : overflows x = true ↔ x < -32768 ∨ 32767 < x := by
  simp [overflows]

/-! ### Addition and subtraction -/

theorem carryNat_le (c : Bool) : carryNat c ≤ 1 := by cases c <;> simp [carryNat]

/-- An addition: accumulator, operand and carry in are the 17-bit number of carry and result. -/
theorem addWithCarry_sum (x : AluIn) (p : Word) (cin : Bool) :
    (addWithCarry x p cin).r.toNat + 65536 * carryNat (addWithCarry x p cin).flags.c
      = x.q.toNat + p.toNat + carryNat cin := by
  have hq := x.q.isLt
  have hp := p.isLt
  have hc := carryNat_le cin
  by_cases h : 65535 < x.q.toNat + p.toNat + carryNat cin
  · simp [addWithCarry, flagsArith, h, carryNat.eq_def true]; omega
  · simp [addWithCarry, flagsArith, h, carryNat.eq_def false]; omega

/-- The flags of an addition, from its result, its carry and the exact signed sum. -/
theorem addWithCarry_flags (x : AluIn) (p : Word) (cin : Bool) :
    (addWithCarry x p cin).flags = flagsArith x.flags (addWithCarry x p cin).r (addWithCarry x p cin).flags.c
      (overflows (x.q.toInt + p.toInt + carryNat cin)) := rfl

/-- A subtraction: the accumulator is operand, borrow in and result, less 2^16 for the borrow out. -/
theorem subWithBorrow_difference (x : AluIn) (p : Word) (bin : Bool) :
    (subWithBorrow x p bin).r.toNat + p.toNat + carryNat bin
      = x.q.toNat + 65536 * carryNat (subWithBorrow x p bin).flags.c := by
  have hq := x.q.isLt
  have hp := p.isLt
  have hc := carryNat_le bin
  by_cases h : x.q.toNat < p.toNat + carryNat bin
  · simp [subWithBorrow, flagsArith, h, carryNat.eq_def true]; omega
  · simp [subWithBorrow, flagsArith, h, carryNat.eq_def false]; omega

/-- The flags of a subtraction, from its result, its borrow and the exact signed difference. -/
theorem subWithBorrow_flags (x : AluIn) (p : Word) (bin : Bool) :
    (subWithBorrow x p bin).flags = flagsArith x.flags (subWithBorrow x p bin).r (subWithBorrow x p bin).flags.c
      (overflows (x.q.toInt - p.toInt - carryNat bin)) := rfl

/-! ### The multiplier -/

/-- M and N are the two halves of the product. -/
theorem State.m_append_n (s : State) : s.m ++ s.n = product s.k s.l := by
  simp only [State.m, State.n]
  apply BitVec.eq_of_getLsbD_eq
  intro i hi
  rw [BitVec.getLsbD_append]
  by_cases h : i < 16
  · simp [h]
  · have e : 16 + (i - 16) = i := by omega
    have l : i - 16 < 16 := by omega
    simp [h, e, l]

/-! ### The data ROM's output -/

/-- The reserved addresses are 0 and 1 of the uPD7720A. -/
theorem dromReserved_iff (a : RomAddr) : dromReserved a = true ↔ Config.part = .upd7720A ∧ a.toNat < 2 := by
  have h0 : a = 0#9 ↔ a.toNat = 0 := BitVec.toNat_eq (y := 0#9)
  have h1 : a = 1#9 ↔ a.toNat = 1 := BitVec.toNat_eq (y := 1#9)
  have h2 : a.toNat < 2 ↔ a.toNat = 0 ∨ a.toNat = 1 := by omega
  rw [h2, ← h0, ← h1]
  simp only [dromReserved, Bool.and_eq_true, Bool.or_eq_true, beq_iff_eq]
  exact and_comm

/-- A data ROM word leaves the ROM with three zeros below it. -/
theorem State.ro_toNat (s : State) (p : RomPort) : (s.ro p).toNat = 8 * (s.dromWord p).toNat := by
  have h := (s.dromWord p).isLt
  simp only [State.ro]
  rw [BitVec.toNat_append]
  simp [Nat.shiftLeft_eq]; omega

/-- Bit i of a reversed word is bit 15 - i of the word. -/
theorem bitrev16_getLsbD (v : Word) (i : Nat) (h : i < 16) : (bitrev16 v).getLsbD i = v.getLsbD (15 - i) := by
  rw [bitrev16, BitVec.getLsbD_reverse, BitVec.getMsbD]
  simp [h]

/-! ### The serial shifters -/

/-- A bit in the middle of an input word changes the shift register and the count only. -/
theorem siBit_middle {b : Bool} {s : State} (h : s.sicnt + 1 < serialLength s.sic) :
    siBit b s = { s with sisr := s.sisr.extractLsb' 0 15 ++ BitVec.ofBool b, sicnt := s.sicnt + 1 } := by
  simp [siBit, h]

/-- The last bit of an input word clears the count and latches the word. -/
theorem siBit_last {b : Bool} {s : State} (h : serialLength s.sic ≤ s.sicnt + 1) :
    siBit b s = State.latchSi { s with sisr := s.sisr.extractLsb' 0 15 ++ BitVec.ofBool b, sicnt := 0 }
      (s.sisr.extractLsb' 0 15 ++ BitVec.ofBool b) := by
  simp [siBit, Nat.not_lt.mpr h]

/-- A bit in the middle of an output word changes the pin and the count only, and is no last bit. -/
theorem soBit_middle {s : State} (h : s.socnt + 1 < serialLength s.soc) :
    soBit s = { s with soPin := s.sosr.getLsbD s.socnt, socnt := s.socnt + 1, soLastBit := false } := by
  simp [soBit, h]

/-- The last bit of an output word ends the word. -/
theorem soBit_last {s : State} (h : serialLength s.soc ≤ s.socnt + 1) :
    soBit s = State.endOfWord { s with soPin := s.sosr.getLsbD s.socnt, soLastBit := false } := by
  simp [soBit, Nat.not_lt.mpr h]

end Sys2Proof.Machine
end

