-- ==== Sys2Proof/Laws/State.lean ====
section
/-! SUPPORT. Each named update of State, field by field: true by rfl, so that no proof unfolds a record update. -/

namespace Sys2Proof.Machine

/-! ### jumpTo -/

@[simp] theorem State.jumpTo_irom (s : State) (t : ProgAddr) : (s.jumpTo t).irom = s.irom := rfl
@[simp] theorem State.jumpTo_pc (s : State) (t : ProgAddr) :
    (s.jumpTo t).pc = t := rfl
@[simp] theorem State.jumpTo_stk (s : State) (t : ProgAddr) : (s.jumpTo t).stk = s.stk := rfl
@[simp] theorem State.jumpTo_ram (s : State) (t : ProgAddr) : (s.jumpTo t).ram = s.ram := rfl
@[simp] theorem State.jumpTo_dp (s : State) (t : ProgAddr) : (s.jumpTo t).dp = s.dp := rfl
@[simp] theorem State.jumpTo_drom (s : State) (t : ProgAddr) : (s.jumpTo t).drom = s.drom := rfl
@[simp] theorem State.jumpTo_rp (s : State) (t : ProgAddr) : (s.jumpTo t).rp = s.rp := rfl
@[simp] theorem State.jumpTo_k (s : State) (t : ProgAddr) : (s.jumpTo t).k = s.k := rfl
@[simp] theorem State.jumpTo_l (s : State) (t : ProgAddr) : (s.jumpTo t).l = s.l := rfl
@[simp] theorem State.jumpTo_accA (s : State) (t : ProgAddr) : (s.jumpTo t).accA = s.accA := rfl
@[simp] theorem State.jumpTo_accB (s : State) (t : ProgAddr) : (s.jumpTo t).accB = s.accB := rfl
@[simp] theorem State.jumpTo_flagA (s : State) (t : ProgAddr) : (s.jumpTo t).flagA = s.flagA := rfl
@[simp] theorem State.jumpTo_flagB (s : State) (t : ProgAddr) : (s.jumpTo t).flagB = s.flagB := rfl
@[simp] theorem State.jumpTo_tr (s : State) (t : ProgAddr) : (s.jumpTo t).tr = s.tr := rfl
@[simp] theorem State.jumpTo_sr (s : State) (t : ProgAddr) : (s.jumpTo t).sr = s.sr := rfl
@[simp] theorem State.jumpTo_dr (s : State) (t : ProgAddr) : (s.jumpTo t).dr = s.dr := rfl
@[simp] theorem State.jumpTo_si (s : State) (t : ProgAddr) : (s.jumpTo t).si = s.si := rfl
@[simp] theorem State.jumpTo_sisr (s : State) (t : ProgAddr) : (s.jumpTo t).sisr = s.sisr := rfl
@[simp] theorem State.jumpTo_sicnt (s : State) (t : ProgAddr) : (s.jumpTo t).sicnt = s.sicnt := rfl
@[simp] theorem State.jumpTo_siack (s : State) (t : ProgAddr) : (s.jumpTo t).siack = s.siack := rfl
@[simp] theorem State.jumpTo_so (s : State) (t : ProgAddr) : (s.jumpTo t).so = s.so := rfl
@[simp] theorem State.jumpTo_sosr (s : State) (t : ProgAddr) : (s.jumpTo t).sosr = s.sosr := rfl
@[simp] theorem State.jumpTo_socnt (s : State) (t : ProgAddr) : (s.jumpTo t).socnt = s.socnt := rfl
@[simp] theorem State.jumpTo_sosrBusy (s : State) (t : ProgAddr) : (s.jumpTo t).sosrBusy = s.sosrBusy := rfl
@[simp] theorem State.jumpTo_soack (s : State) (t : ProgAddr) : (s.jumpTo t).soack = s.soack := rfl
@[simp] theorem State.jumpTo_sorq (s : State) (t : ProgAddr) : (s.jumpTo t).sorq = s.sorq := rfl
@[simp] theorem State.jumpTo_soPin (s : State) (t : ProgAddr) : (s.jumpTo t).soPin = s.soPin := rfl
@[simp] theorem State.jumpTo_soenLevel (s : State) (t : ProgAddr) : (s.jumpTo t).soenLevel = s.soenLevel := rfl
@[simp] theorem State.jumpTo_soLastBit (s : State) (t : ProgAddr) : (s.jumpTo t).soLastBit = s.soLastBit := rfl
@[simp] theorem State.jumpTo_drq (s : State) (t : ProgAddr) : (s.jumpTo t).drq = s.drq := rfl
@[simp] theorem State.jumpTo_intLevel (s : State) (t : ProgAddr) : (s.jumpTo t).intLevel = s.intLevel := rfl
@[simp] theorem State.jumpTo_intPending (s : State) (t : ProgAddr) : (s.jumpTo t).intPending = s.intPending := rfl
@[simp] theorem State.jumpTo_draws (s : State) (t : ProgAddr) : (s.jumpTo t).draws = s.draws := rfl
@[simp] theorem State.jumpTo_turns (s : State) (t : ProgAddr) : (s.jumpTo t).turns = s.turns := rfl
@[simp] theorem State.jumpTo_dBus (s : State) (t : ProgAddr) : (s.jumpTo t).dBus = s.dBus := rfl
@[simp] theorem State.jumpTo_xferDir (s : State) (t : ProgAddr) : (s.jumpTo t).xferDir = s.xferDir := rfl
@[simp] theorem State.jumpTo_xferSpoilt (s : State) (t : ProgAddr) : (s.jumpTo t).xferSpoilt = s.xferSpoilt := rfl
@[simp] theorem State.jumpTo_siSpoilt (s : State) (t : ProgAddr) : (s.jumpTo t).siSpoilt = s.siSpoilt := rfl
@[simp] theorem State.jumpTo_soSpoilt (s : State) (t : ProgAddr) : (s.jumpTo t).soSpoilt = s.soSpoilt := rfl

/-! ### advance -/

@[simp] theorem State.advance_irom (s : State) : (s.advance).irom = s.irom := rfl
@[simp] theorem State.advance_pc (s : State) :
    (s.advance).pc = nextPc s.pc := rfl
@[simp] theorem State.advance_stk (s : State) : (s.advance).stk = s.stk := rfl
@[simp] theorem State.advance_ram (s : State) : (s.advance).ram = s.ram := rfl
@[simp] theorem State.advance_dp (s : State) : (s.advance).dp = s.dp := rfl
@[simp] theorem State.advance_drom (s : State) : (s.advance).drom = s.drom := rfl
@[simp] theorem State.advance_rp (s : State) : (s.advance).rp = s.rp := rfl
@[simp] theorem State.advance_k (s : State) : (s.advance).k = s.k := rfl
@[simp] theorem State.advance_l (s : State) : (s.advance).l = s.l := rfl
@[simp] theorem State.advance_accA (s : State) : (s.advance).accA = s.accA := rfl
@[simp] theorem State.advance_accB (s : State) : (s.advance).accB = s.accB := rfl
@[simp] theorem State.advance_flagA (s : State) : (s.advance).flagA = s.flagA := rfl
@[simp] theorem State.advance_flagB (s : State) : (s.advance).flagB = s.flagB := rfl
@[simp] theorem State.advance_tr (s : State) : (s.advance).tr = s.tr := rfl
@[simp] theorem State.advance_sr (s : State) : (s.advance).sr = s.sr := rfl
@[simp] theorem State.advance_dr (s : State) : (s.advance).dr = s.dr := rfl
@[simp] theorem State.advance_si (s : State) : (s.advance).si = s.si := rfl
@[simp] theorem State.advance_sisr (s : State) : (s.advance).sisr = s.sisr := rfl
@[simp] theorem State.advance_sicnt (s : State) : (s.advance).sicnt = s.sicnt := rfl
@[simp] theorem State.advance_siack (s : State) : (s.advance).siack = s.siack := rfl
@[simp] theorem State.advance_so (s : State) : (s.advance).so = s.so := rfl
@[simp] theorem State.advance_sosr (s : State) : (s.advance).sosr = s.sosr := rfl
@[simp] theorem State.advance_socnt (s : State) : (s.advance).socnt = s.socnt := rfl
@[simp] theorem State.advance_sosrBusy (s : State) : (s.advance).sosrBusy = s.sosrBusy := rfl
@[simp] theorem State.advance_soack (s : State) : (s.advance).soack = s.soack := rfl
@[simp] theorem State.advance_sorq (s : State) : (s.advance).sorq = s.sorq := rfl
@[simp] theorem State.advance_soPin (s : State) : (s.advance).soPin = s.soPin := rfl
@[simp] theorem State.advance_soenLevel (s : State) : (s.advance).soenLevel = s.soenLevel := rfl
@[simp] theorem State.advance_soLastBit (s : State) : (s.advance).soLastBit = s.soLastBit := rfl
@[simp] theorem State.advance_drq (s : State) : (s.advance).drq = s.drq := rfl
@[simp] theorem State.advance_intLevel (s : State) : (s.advance).intLevel = s.intLevel := rfl
@[simp] theorem State.advance_intPending (s : State) : (s.advance).intPending = s.intPending := rfl
@[simp] theorem State.advance_draws (s : State) : (s.advance).draws = s.draws := rfl
@[simp] theorem State.advance_turns (s : State) : (s.advance).turns = s.turns := rfl
@[simp] theorem State.advance_dBus (s : State) : (s.advance).dBus = s.dBus := rfl
@[simp] theorem State.advance_xferDir (s : State) : (s.advance).xferDir = s.xferDir := rfl
@[simp] theorem State.advance_xferSpoilt (s : State) : (s.advance).xferSpoilt = s.xferSpoilt := rfl
@[simp] theorem State.advance_siSpoilt (s : State) : (s.advance).siSpoilt = s.siSpoilt := rfl
@[simp] theorem State.advance_soSpoilt (s : State) : (s.advance).soSpoilt = s.soSpoilt := rfl

/-! ### push -/

@[simp] theorem State.push_irom (s : State) (v : ProgAddr) : (s.push v).irom = s.irom := rfl
@[simp] theorem State.push_pc (s : State) (v : ProgAddr) : (s.push v).pc = s.pc := rfl
@[simp] theorem State.push_stk (s : State) (v : ProgAddr) :
    (s.push v).stk = (v :: s.stk).take Config.stackDepth := rfl
@[simp] theorem State.push_ram (s : State) (v : ProgAddr) : (s.push v).ram = s.ram := rfl
@[simp] theorem State.push_dp (s : State) (v : ProgAddr) : (s.push v).dp = s.dp := rfl
@[simp] theorem State.push_drom (s : State) (v : ProgAddr) : (s.push v).drom = s.drom := rfl
@[simp] theorem State.push_rp (s : State) (v : ProgAddr) : (s.push v).rp = s.rp := rfl
@[simp] theorem State.push_k (s : State) (v : ProgAddr) : (s.push v).k = s.k := rfl
@[simp] theorem State.push_l (s : State) (v : ProgAddr) : (s.push v).l = s.l := rfl
@[simp] theorem State.push_accA (s : State) (v : ProgAddr) : (s.push v).accA = s.accA := rfl
@[simp] theorem State.push_accB (s : State) (v : ProgAddr) : (s.push v).accB = s.accB := rfl
@[simp] theorem State.push_flagA (s : State) (v : ProgAddr) : (s.push v).flagA = s.flagA := rfl
@[simp] theorem State.push_flagB (s : State) (v : ProgAddr) : (s.push v).flagB = s.flagB := rfl
@[simp] theorem State.push_tr (s : State) (v : ProgAddr) : (s.push v).tr = s.tr := rfl
@[simp] theorem State.push_sr (s : State) (v : ProgAddr) : (s.push v).sr = s.sr := rfl
@[simp] theorem State.push_dr (s : State) (v : ProgAddr) : (s.push v).dr = s.dr := rfl
@[simp] theorem State.push_si (s : State) (v : ProgAddr) : (s.push v).si = s.si := rfl
@[simp] theorem State.push_sisr (s : State) (v : ProgAddr) : (s.push v).sisr = s.sisr := rfl
@[simp] theorem State.push_sicnt (s : State) (v : ProgAddr) : (s.push v).sicnt = s.sicnt := rfl
@[simp] theorem State.push_siack (s : State) (v : ProgAddr) : (s.push v).siack = s.siack := rfl
@[simp] theorem State.push_so (s : State) (v : ProgAddr) : (s.push v).so = s.so := rfl
@[simp] theorem State.push_sosr (s : State) (v : ProgAddr) : (s.push v).sosr = s.sosr := rfl
@[simp] theorem State.push_socnt (s : State) (v : ProgAddr) : (s.push v).socnt = s.socnt := rfl
@[simp] theorem State.push_sosrBusy (s : State) (v : ProgAddr) : (s.push v).sosrBusy = s.sosrBusy := rfl
@[simp] theorem State.push_soack (s : State) (v : ProgAddr) : (s.push v).soack = s.soack := rfl
@[simp] theorem State.push_sorq (s : State) (v : ProgAddr) : (s.push v).sorq = s.sorq := rfl
@[simp] theorem State.push_soPin (s : State) (v : ProgAddr) : (s.push v).soPin = s.soPin := rfl
@[simp] theorem State.push_soenLevel (s : State) (v : ProgAddr) : (s.push v).soenLevel = s.soenLevel := rfl
@[simp] theorem State.push_soLastBit (s : State) (v : ProgAddr) : (s.push v).soLastBit = s.soLastBit := rfl
@[simp] theorem State.push_drq (s : State) (v : ProgAddr) : (s.push v).drq = s.drq := rfl
@[simp] theorem State.push_intLevel (s : State) (v : ProgAddr) : (s.push v).intLevel = s.intLevel := rfl
@[simp] theorem State.push_intPending (s : State) (v : ProgAddr) : (s.push v).intPending = s.intPending := rfl
@[simp] theorem State.push_draws (s : State) (v : ProgAddr) : (s.push v).draws = s.draws := rfl
@[simp] theorem State.push_turns (s : State) (v : ProgAddr) : (s.push v).turns = s.turns := rfl
@[simp] theorem State.push_dBus (s : State) (v : ProgAddr) : (s.push v).dBus = s.dBus := rfl
@[simp] theorem State.push_xferDir (s : State) (v : ProgAddr) : (s.push v).xferDir = s.xferDir := rfl
@[simp] theorem State.push_xferSpoilt (s : State) (v : ProgAddr) : (s.push v).xferSpoilt = s.xferSpoilt := rfl
@[simp] theorem State.push_siSpoilt (s : State) (v : ProgAddr) : (s.push v).siSpoilt = s.siSpoilt := rfl
@[simp] theorem State.push_soSpoilt (s : State) (v : ProgAddr) : (s.push v).soSpoilt = s.soSpoilt := rfl

/-! ### setRamWord -/

@[simp] theorem State.setRamWord_irom (s : State) (a : RamAddr) (v : Word) : (s.setRamWord a v).irom = s.irom := rfl
@[simp] theorem State.setRamWord_pc (s : State) (a : RamAddr) (v : Word) : (s.setRamWord a v).pc = s.pc := rfl
@[simp] theorem State.setRamWord_stk (s : State) (a : RamAddr) (v : Word) : (s.setRamWord a v).stk = s.stk := rfl
@[simp] theorem State.setRamWord_ram (s : State) (a : RamAddr) (v : Word) :
    (s.setRamWord a v).ram = Memory.write s.ram a.toNat v := rfl
@[simp] theorem State.setRamWord_dp (s : State) (a : RamAddr) (v : Word) : (s.setRamWord a v).dp = s.dp := rfl
@[simp] theorem State.setRamWord_drom (s : State) (a : RamAddr) (v : Word) : (s.setRamWord a v).drom = s.drom := rfl
@[simp] theorem State.setRamWord_rp (s : State) (a : RamAddr) (v : Word) : (s.setRamWord a v).rp = s.rp := rfl
@[simp] theorem State.setRamWord_k (s : State) (a : RamAddr) (v : Word) : (s.setRamWord a v).k = s.k := rfl
@[simp] theorem State.setRamWord_l (s : State) (a : RamAddr) (v : Word) : (s.setRamWord a v).l = s.l := rfl
@[simp] theorem State.setRamWord_accA (s : State) (a : RamAddr) (v : Word) : (s.setRamWord a v).accA = s.accA := rfl
@[simp] theorem State.setRamWord_accB (s : State) (a : RamAddr) (v : Word) : (s.setRamWord a v).accB = s.accB := rfl
@[simp] theorem State.setRamWord_flagA (s : State) (a : RamAddr) (v : Word) : (s.setRamWord a v).flagA = s.flagA := rfl
@[simp] theorem State.setRamWord_flagB (s : State) (a : RamAddr) (v : Word) : (s.setRamWord a v).flagB = s.flagB := rfl
@[simp] theorem State.setRamWord_tr (s : State) (a : RamAddr) (v : Word) : (s.setRamWord a v).tr = s.tr := rfl
@[simp] theorem State.setRamWord_sr (s : State) (a : RamAddr) (v : Word) : (s.setRamWord a v).sr = s.sr := rfl
@[simp] theorem State.setRamWord_dr (s : State) (a : RamAddr) (v : Word) : (s.setRamWord a v).dr = s.dr := rfl
@[simp] theorem State.setRamWord_si (s : State) (a : RamAddr) (v : Word) : (s.setRamWord a v).si = s.si := rfl
@[simp] theorem State.setRamWord_sisr (s : State) (a : RamAddr) (v : Word) : (s.setRamWord a v).sisr = s.sisr := rfl
@[simp] theorem State.setRamWord_sicnt (s : State) (a : RamAddr) (v : Word) : (s.setRamWord a v).sicnt = s.sicnt := rfl
@[simp] theorem State.setRamWord_siack (s : State) (a : RamAddr) (v : Word) : (s.setRamWord a v).siack = s.siack := rfl
@[simp] theorem State.setRamWord_so (s : State) (a : RamAddr) (v : Word) : (s.setRamWord a v).so = s.so := rfl
@[simp] theorem State.setRamWord_sosr (s : State) (a : RamAddr) (v : Word) : (s.setRamWord a v).sosr = s.sosr := rfl
@[simp] theorem State.setRamWord_socnt (s : State) (a : RamAddr) (v : Word) : (s.setRamWord a v).socnt = s.socnt := rfl
@[simp] theorem State.setRamWord_sosrBusy (s : State) (a : RamAddr) (v : Word) : (s.setRamWord a v).sosrBusy = s.sosrBusy := rfl
@[simp] theorem State.setRamWord_soack (s : State) (a : RamAddr) (v : Word) : (s.setRamWord a v).soack = s.soack := rfl
@[simp] theorem State.setRamWord_sorq (s : State) (a : RamAddr) (v : Word) : (s.setRamWord a v).sorq = s.sorq := rfl
@[simp] theorem State.setRamWord_soPin (s : State) (a : RamAddr) (v : Word) : (s.setRamWord a v).soPin = s.soPin := rfl
@[simp] theorem State.setRamWord_soenLevel (s : State) (a : RamAddr) (v : Word) : (s.setRamWord a v).soenLevel = s.soenLevel := rfl
@[simp] theorem State.setRamWord_soLastBit (s : State) (a : RamAddr) (v : Word) : (s.setRamWord a v).soLastBit = s.soLastBit := rfl
@[simp] theorem State.setRamWord_drq (s : State) (a : RamAddr) (v : Word) : (s.setRamWord a v).drq = s.drq := rfl
@[simp] theorem State.setRamWord_intLevel (s : State) (a : RamAddr) (v : Word) : (s.setRamWord a v).intLevel = s.intLevel := rfl
@[simp] theorem State.setRamWord_intPending (s : State) (a : RamAddr) (v : Word) : (s.setRamWord a v).intPending = s.intPending := rfl
@[simp] theorem State.setRamWord_draws (s : State) (a : RamAddr) (v : Word) : (s.setRamWord a v).draws = s.draws := rfl
@[simp] theorem State.setRamWord_turns (s : State) (a : RamAddr) (v : Word) : (s.setRamWord a v).turns = s.turns := rfl
@[simp] theorem State.setRamWord_dBus (s : State) (a : RamAddr) (v : Word) : (s.setRamWord a v).dBus = s.dBus := rfl
@[simp] theorem State.setRamWord_xferDir (s : State) (a : RamAddr) (v : Word) : (s.setRamWord a v).xferDir = s.xferDir := rfl
@[simp] theorem State.setRamWord_xferSpoilt (s : State) (a : RamAddr) (v : Word) : (s.setRamWord a v).xferSpoilt = s.xferSpoilt := rfl
@[simp] theorem State.setRamWord_siSpoilt (s : State) (a : RamAddr) (v : Word) : (s.setRamWord a v).siSpoilt = s.siSpoilt := rfl
@[simp] theorem State.setRamWord_soSpoilt (s : State) (a : RamAddr) (v : Word) : (s.setRamWord a v).soSpoilt = s.soSpoilt := rfl

/-! ### setAcc -/

@[simp] theorem State.setAcc_irom (s : State) (a : Asl) (v : Word) : (s.setAcc a v).irom = s.irom := rfl
@[simp] theorem State.setAcc_pc (s : State) (a : Asl) (v : Word) : (s.setAcc a v).pc = s.pc := rfl
@[simp] theorem State.setAcc_stk (s : State) (a : Asl) (v : Word) : (s.setAcc a v).stk = s.stk := rfl
@[simp] theorem State.setAcc_ram (s : State) (a : Asl) (v : Word) : (s.setAcc a v).ram = s.ram := rfl
@[simp] theorem State.setAcc_dp (s : State) (a : Asl) (v : Word) : (s.setAcc a v).dp = s.dp := rfl
@[simp] theorem State.setAcc_drom (s : State) (a : Asl) (v : Word) : (s.setAcc a v).drom = s.drom := rfl
@[simp] theorem State.setAcc_rp (s : State) (a : Asl) (v : Word) : (s.setAcc a v).rp = s.rp := rfl
@[simp] theorem State.setAcc_k (s : State) (a : Asl) (v : Word) : (s.setAcc a v).k = s.k := rfl
@[simp] theorem State.setAcc_l (s : State) (a : Asl) (v : Word) : (s.setAcc a v).l = s.l := rfl
@[simp] theorem State.setAcc_accA (s : State) (a : Asl) (v : Word) :
    (s.setAcc a v).accA = match a with | .accA => v | .accB => s.accA := rfl
@[simp] theorem State.setAcc_accB (s : State) (a : Asl) (v : Word) :
    (s.setAcc a v).accB = match a with | .accA => s.accB | .accB => v := rfl
@[simp] theorem State.setAcc_flagA (s : State) (a : Asl) (v : Word) : (s.setAcc a v).flagA = s.flagA := rfl
@[simp] theorem State.setAcc_flagB (s : State) (a : Asl) (v : Word) : (s.setAcc a v).flagB = s.flagB := rfl
@[simp] theorem State.setAcc_tr (s : State) (a : Asl) (v : Word) : (s.setAcc a v).tr = s.tr := rfl
@[simp] theorem State.setAcc_sr (s : State) (a : Asl) (v : Word) : (s.setAcc a v).sr = s.sr := rfl
@[simp] theorem State.setAcc_dr (s : State) (a : Asl) (v : Word) : (s.setAcc a v).dr = s.dr := rfl
@[simp] theorem State.setAcc_si (s : State) (a : Asl) (v : Word) : (s.setAcc a v).si = s.si := rfl
@[simp] theorem State.setAcc_sisr (s : State) (a : Asl) (v : Word) : (s.setAcc a v).sisr = s.sisr := rfl
@[simp] theorem State.setAcc_sicnt (s : State) (a : Asl) (v : Word) : (s.setAcc a v).sicnt = s.sicnt := rfl
@[simp] theorem State.setAcc_siack (s : State) (a : Asl) (v : Word) : (s.setAcc a v).siack = s.siack := rfl
@[simp] theorem State.setAcc_so (s : State) (a : Asl) (v : Word) : (s.setAcc a v).so = s.so := rfl
@[simp] theorem State.setAcc_sosr (s : State) (a : Asl) (v : Word) : (s.setAcc a v).sosr = s.sosr := rfl
@[simp] theorem State.setAcc_socnt (s : State) (a : Asl) (v : Word) : (s.setAcc a v).socnt = s.socnt := rfl
@[simp] theorem State.setAcc_sosrBusy (s : State) (a : Asl) (v : Word) : (s.setAcc a v).sosrBusy = s.sosrBusy := rfl
@[simp] theorem State.setAcc_soack (s : State) (a : Asl) (v : Word) : (s.setAcc a v).soack = s.soack := rfl
@[simp] theorem State.setAcc_sorq (s : State) (a : Asl) (v : Word) : (s.setAcc a v).sorq = s.sorq := rfl
@[simp] theorem State.setAcc_soPin (s : State) (a : Asl) (v : Word) : (s.setAcc a v).soPin = s.soPin := rfl
@[simp] theorem State.setAcc_soenLevel (s : State) (a : Asl) (v : Word) : (s.setAcc a v).soenLevel = s.soenLevel := rfl
@[simp] theorem State.setAcc_soLastBit (s : State) (a : Asl) (v : Word) : (s.setAcc a v).soLastBit = s.soLastBit := rfl
@[simp] theorem State.setAcc_drq (s : State) (a : Asl) (v : Word) : (s.setAcc a v).drq = s.drq := rfl
@[simp] theorem State.setAcc_intLevel (s : State) (a : Asl) (v : Word) : (s.setAcc a v).intLevel = s.intLevel := rfl
@[simp] theorem State.setAcc_intPending (s : State) (a : Asl) (v : Word) : (s.setAcc a v).intPending = s.intPending := rfl
@[simp] theorem State.setAcc_draws (s : State) (a : Asl) (v : Word) : (s.setAcc a v).draws = s.draws := rfl
@[simp] theorem State.setAcc_turns (s : State) (a : Asl) (v : Word) : (s.setAcc a v).turns = s.turns := rfl
@[simp] theorem State.setAcc_dBus (s : State) (a : Asl) (v : Word) : (s.setAcc a v).dBus = s.dBus := rfl
@[simp] theorem State.setAcc_xferDir (s : State) (a : Asl) (v : Word) : (s.setAcc a v).xferDir = s.xferDir := rfl
@[simp] theorem State.setAcc_xferSpoilt (s : State) (a : Asl) (v : Word) : (s.setAcc a v).xferSpoilt = s.xferSpoilt := rfl
@[simp] theorem State.setAcc_siSpoilt (s : State) (a : Asl) (v : Word) : (s.setAcc a v).siSpoilt = s.siSpoilt := rfl
@[simp] theorem State.setAcc_soSpoilt (s : State) (a : Asl) (v : Word) : (s.setAcc a v).soSpoilt = s.soSpoilt := rfl

/-! ### setFlags -/

@[simp] theorem State.setFlags_irom (s : State) (a : Asl) (fl : Flags) : (s.setFlags a fl).irom = s.irom := rfl
@[simp] theorem State.setFlags_pc (s : State) (a : Asl) (fl : Flags) : (s.setFlags a fl).pc = s.pc := rfl
@[simp] theorem State.setFlags_stk (s : State) (a : Asl) (fl : Flags) : (s.setFlags a fl).stk = s.stk := rfl
@[simp] theorem State.setFlags_ram (s : State) (a : Asl) (fl : Flags) : (s.setFlags a fl).ram = s.ram := rfl
@[simp] theorem State.setFlags_dp (s : State) (a : Asl) (fl : Flags) : (s.setFlags a fl).dp = s.dp := rfl
@[simp] theorem State.setFlags_drom (s : State) (a : Asl) (fl : Flags) : (s.setFlags a fl).drom = s.drom := rfl
@[simp] theorem State.setFlags_rp (s : State) (a : Asl) (fl : Flags) : (s.setFlags a fl).rp = s.rp := rfl
@[simp] theorem State.setFlags_k (s : State) (a : Asl) (fl : Flags) : (s.setFlags a fl).k = s.k := rfl
@[simp] theorem State.setFlags_l (s : State) (a : Asl) (fl : Flags) : (s.setFlags a fl).l = s.l := rfl
@[simp] theorem State.setFlags_accA (s : State) (a : Asl) (fl : Flags) : (s.setFlags a fl).accA = s.accA := rfl
@[simp] theorem State.setFlags_accB (s : State) (a : Asl) (fl : Flags) : (s.setFlags a fl).accB = s.accB := rfl
@[simp] theorem State.setFlags_flagA (s : State) (a : Asl) (fl : Flags) :
    (s.setFlags a fl).flagA = match a with | .accA => fl | .accB => s.flagA := rfl
@[simp] theorem State.setFlags_flagB (s : State) (a : Asl) (fl : Flags) :
    (s.setFlags a fl).flagB = match a with | .accA => s.flagB | .accB => fl := rfl
@[simp] theorem State.setFlags_tr (s : State) (a : Asl) (fl : Flags) : (s.setFlags a fl).tr = s.tr := rfl
@[simp] theorem State.setFlags_sr (s : State) (a : Asl) (fl : Flags) : (s.setFlags a fl).sr = s.sr := rfl
@[simp] theorem State.setFlags_dr (s : State) (a : Asl) (fl : Flags) : (s.setFlags a fl).dr = s.dr := rfl
@[simp] theorem State.setFlags_si (s : State) (a : Asl) (fl : Flags) : (s.setFlags a fl).si = s.si := rfl
@[simp] theorem State.setFlags_sisr (s : State) (a : Asl) (fl : Flags) : (s.setFlags a fl).sisr = s.sisr := rfl
@[simp] theorem State.setFlags_sicnt (s : State) (a : Asl) (fl : Flags) : (s.setFlags a fl).sicnt = s.sicnt := rfl
@[simp] theorem State.setFlags_siack (s : State) (a : Asl) (fl : Flags) : (s.setFlags a fl).siack = s.siack := rfl
@[simp] theorem State.setFlags_so (s : State) (a : Asl) (fl : Flags) : (s.setFlags a fl).so = s.so := rfl
@[simp] theorem State.setFlags_sosr (s : State) (a : Asl) (fl : Flags) : (s.setFlags a fl).sosr = s.sosr := rfl
@[simp] theorem State.setFlags_socnt (s : State) (a : Asl) (fl : Flags) : (s.setFlags a fl).socnt = s.socnt := rfl
@[simp] theorem State.setFlags_sosrBusy (s : State) (a : Asl) (fl : Flags) : (s.setFlags a fl).sosrBusy = s.sosrBusy := rfl
@[simp] theorem State.setFlags_soack (s : State) (a : Asl) (fl : Flags) : (s.setFlags a fl).soack = s.soack := rfl
@[simp] theorem State.setFlags_sorq (s : State) (a : Asl) (fl : Flags) : (s.setFlags a fl).sorq = s.sorq := rfl
@[simp] theorem State.setFlags_soPin (s : State) (a : Asl) (fl : Flags) : (s.setFlags a fl).soPin = s.soPin := rfl
@[simp] theorem State.setFlags_soenLevel (s : State) (a : Asl) (fl : Flags) : (s.setFlags a fl).soenLevel = s.soenLevel := rfl
@[simp] theorem State.setFlags_soLastBit (s : State) (a : Asl) (fl : Flags) : (s.setFlags a fl).soLastBit = s.soLastBit := rfl
@[simp] theorem State.setFlags_drq (s : State) (a : Asl) (fl : Flags) : (s.setFlags a fl).drq = s.drq := rfl
@[simp] theorem State.setFlags_intLevel (s : State) (a : Asl) (fl : Flags) : (s.setFlags a fl).intLevel = s.intLevel := rfl
@[simp] theorem State.setFlags_intPending (s : State) (a : Asl) (fl : Flags) : (s.setFlags a fl).intPending = s.intPending := rfl
@[simp] theorem State.setFlags_draws (s : State) (a : Asl) (fl : Flags) : (s.setFlags a fl).draws = s.draws := rfl
@[simp] theorem State.setFlags_turns (s : State) (a : Asl) (fl : Flags) : (s.setFlags a fl).turns = s.turns := rfl
@[simp] theorem State.setFlags_dBus (s : State) (a : Asl) (fl : Flags) : (s.setFlags a fl).dBus = s.dBus := rfl
@[simp] theorem State.setFlags_xferDir (s : State) (a : Asl) (fl : Flags) : (s.setFlags a fl).xferDir = s.xferDir := rfl
@[simp] theorem State.setFlags_xferSpoilt (s : State) (a : Asl) (fl : Flags) : (s.setFlags a fl).xferSpoilt = s.xferSpoilt := rfl
@[simp] theorem State.setFlags_siSpoilt (s : State) (a : Asl) (fl : Flags) : (s.setFlags a fl).siSpoilt = s.siSpoilt := rfl
@[simp] theorem State.setFlags_soSpoilt (s : State) (a : Asl) (fl : Flags) : (s.setFlags a fl).soSpoilt = s.soSpoilt := rfl

/-! ### writeSr -/

@[simp] theorem State.writeSr_irom (s : State) (v : Word) : (s.writeSr v).irom = s.irom := rfl
@[simp] theorem State.writeSr_pc (s : State) (v : Word) : (s.writeSr v).pc = s.pc := rfl
@[simp] theorem State.writeSr_stk (s : State) (v : Word) : (s.writeSr v).stk = s.stk := rfl
@[simp] theorem State.writeSr_ram (s : State) (v : Word) : (s.writeSr v).ram = s.ram := rfl
@[simp] theorem State.writeSr_dp (s : State) (v : Word) : (s.writeSr v).dp = s.dp := rfl
@[simp] theorem State.writeSr_drom (s : State) (v : Word) : (s.writeSr v).drom = s.drom := rfl
@[simp] theorem State.writeSr_rp (s : State) (v : Word) : (s.writeSr v).rp = s.rp := rfl
@[simp] theorem State.writeSr_k (s : State) (v : Word) : (s.writeSr v).k = s.k := rfl
@[simp] theorem State.writeSr_l (s : State) (v : Word) : (s.writeSr v).l = s.l := rfl
@[simp] theorem State.writeSr_accA (s : State) (v : Word) : (s.writeSr v).accA = s.accA := rfl
@[simp] theorem State.writeSr_accB (s : State) (v : Word) : (s.writeSr v).accB = s.accB := rfl
@[simp] theorem State.writeSr_flagA (s : State) (v : Word) : (s.writeSr v).flagA = s.flagA := rfl
@[simp] theorem State.writeSr_flagB (s : State) (v : Word) : (s.writeSr v).flagB = s.flagB := rfl
@[simp] theorem State.writeSr_tr (s : State) (v : Word) : (s.writeSr v).tr = s.tr := rfl
@[simp] theorem State.writeSr_sr (s : State) (v : Word) :
    (s.writeSr v).sr = (s.sr &&& srKept) ||| (v &&& srWritable) := rfl
@[simp] theorem State.writeSr_dr (s : State) (v : Word) : (s.writeSr v).dr = s.dr := rfl
@[simp] theorem State.writeSr_si (s : State) (v : Word) : (s.writeSr v).si = s.si := rfl
@[simp] theorem State.writeSr_sisr (s : State) (v : Word) : (s.writeSr v).sisr = s.sisr := rfl
@[simp] theorem State.writeSr_sicnt (s : State) (v : Word) : (s.writeSr v).sicnt = s.sicnt := rfl
@[simp] theorem State.writeSr_siack (s : State) (v : Word) : (s.writeSr v).siack = s.siack := rfl
@[simp] theorem State.writeSr_so (s : State) (v : Word) : (s.writeSr v).so = s.so := rfl
@[simp] theorem State.writeSr_sosr (s : State) (v : Word) : (s.writeSr v).sosr = s.sosr := rfl
@[simp] theorem State.writeSr_socnt (s : State) (v : Word) : (s.writeSr v).socnt = s.socnt := rfl
@[simp] theorem State.writeSr_sosrBusy (s : State) (v : Word) : (s.writeSr v).sosrBusy = s.sosrBusy := rfl
@[simp] theorem State.writeSr_soack (s : State) (v : Word) : (s.writeSr v).soack = s.soack := rfl
@[simp] theorem State.writeSr_sorq (s : State) (v : Word) : (s.writeSr v).sorq = s.sorq := rfl
@[simp] theorem State.writeSr_soPin (s : State) (v : Word) : (s.writeSr v).soPin = s.soPin := rfl
@[simp] theorem State.writeSr_soenLevel (s : State) (v : Word) : (s.writeSr v).soenLevel = s.soenLevel := rfl
@[simp] theorem State.writeSr_soLastBit (s : State) (v : Word) : (s.writeSr v).soLastBit = s.soLastBit := rfl
@[simp] theorem State.writeSr_drq (s : State) (v : Word) : (s.writeSr v).drq = s.drq := rfl
@[simp] theorem State.writeSr_intLevel (s : State) (v : Word) : (s.writeSr v).intLevel = s.intLevel := rfl
@[simp] theorem State.writeSr_intPending (s : State) (v : Word) : (s.writeSr v).intPending = s.intPending := rfl
@[simp] theorem State.writeSr_draws (s : State) (v : Word) : (s.writeSr v).draws = s.draws := rfl
@[simp] theorem State.writeSr_turns (s : State) (v : Word) : (s.writeSr v).turns = s.turns := rfl
@[simp] theorem State.writeSr_dBus (s : State) (v : Word) : (s.writeSr v).dBus = s.dBus := rfl
@[simp] theorem State.writeSr_xferDir (s : State) (v : Word) : (s.writeSr v).xferDir = s.xferDir := rfl
@[simp] theorem State.writeSr_xferSpoilt (s : State) (v : Word) :
    (s.writeSr v).xferSpoilt = (s.xferSpoilt || (s.drs && (s.drc != v.getLsbD 10 || s.dma != v.getLsbD 11))) := rfl
@[simp] theorem State.writeSr_siSpoilt (s : State) (v : Word) :
    (s.writeSr v).siSpoilt = (s.siSpoilt || (s.sicnt != 0 && s.sic != v.getLsbD 8)) := rfl
@[simp] theorem State.writeSr_soSpoilt (s : State) (v : Word) :
    (s.writeSr v).soSpoilt = (s.soSpoilt || (s.sosrBusy && s.soc != v.getLsbD 9)) := rfl

/-! ### signalTransfer -/

@[simp] theorem State.signalTransfer_irom (s : State) (start : State) : (State.signalTransfer start s).irom = s.irom := rfl
@[simp] theorem State.signalTransfer_pc (s : State) (start : State) : (State.signalTransfer start s).pc = s.pc := rfl
@[simp] theorem State.signalTransfer_stk (s : State) (start : State) : (State.signalTransfer start s).stk = s.stk := rfl
@[simp] theorem State.signalTransfer_ram (s : State) (start : State) : (State.signalTransfer start s).ram = s.ram := rfl
@[simp] theorem State.signalTransfer_dp (s : State) (start : State) : (State.signalTransfer start s).dp = s.dp := rfl
@[simp] theorem State.signalTransfer_drom (s : State) (start : State) : (State.signalTransfer start s).drom = s.drom := rfl
@[simp] theorem State.signalTransfer_rp (s : State) (start : State) : (State.signalTransfer start s).rp = s.rp := rfl
@[simp] theorem State.signalTransfer_k (s : State) (start : State) : (State.signalTransfer start s).k = s.k := rfl
@[simp] theorem State.signalTransfer_l (s : State) (start : State) : (State.signalTransfer start s).l = s.l := rfl
@[simp] theorem State.signalTransfer_accA (s : State) (start : State) : (State.signalTransfer start s).accA = s.accA := rfl
@[simp] theorem State.signalTransfer_accB (s : State) (start : State) : (State.signalTransfer start s).accB = s.accB := rfl
@[simp] theorem State.signalTransfer_flagA (s : State) (start : State) : (State.signalTransfer start s).flagA = s.flagA := rfl
@[simp] theorem State.signalTransfer_flagB (s : State) (start : State) : (State.signalTransfer start s).flagB = s.flagB := rfl
@[simp] theorem State.signalTransfer_tr (s : State) (start : State) : (State.signalTransfer start s).tr = s.tr := rfl
@[simp] theorem State.signalTransfer_sr (s : State) (start : State) :
    (State.signalTransfer start s).sr = if start.dma then s.sr else s.sr ||| rqmBit := rfl
@[simp] theorem State.signalTransfer_dr (s : State) (start : State) : (State.signalTransfer start s).dr = s.dr := rfl
@[simp] theorem State.signalTransfer_si (s : State) (start : State) : (State.signalTransfer start s).si = s.si := rfl
@[simp] theorem State.signalTransfer_sisr (s : State) (start : State) : (State.signalTransfer start s).sisr = s.sisr := rfl
@[simp] theorem State.signalTransfer_sicnt (s : State) (start : State) : (State.signalTransfer start s).sicnt = s.sicnt := rfl
@[simp] theorem State.signalTransfer_siack (s : State) (start : State) : (State.signalTransfer start s).siack = s.siack := rfl
@[simp] theorem State.signalTransfer_so (s : State) (start : State) : (State.signalTransfer start s).so = s.so := rfl
@[simp] theorem State.signalTransfer_sosr (s : State) (start : State) : (State.signalTransfer start s).sosr = s.sosr := rfl
@[simp] theorem State.signalTransfer_socnt (s : State) (start : State) : (State.signalTransfer start s).socnt = s.socnt := rfl
@[simp] theorem State.signalTransfer_sosrBusy (s : State) (start : State) : (State.signalTransfer start s).sosrBusy = s.sosrBusy := rfl
@[simp] theorem State.signalTransfer_soack (s : State) (start : State) : (State.signalTransfer start s).soack = s.soack := rfl
@[simp] theorem State.signalTransfer_sorq (s : State) (start : State) : (State.signalTransfer start s).sorq = s.sorq := rfl
@[simp] theorem State.signalTransfer_soPin (s : State) (start : State) : (State.signalTransfer start s).soPin = s.soPin := rfl
@[simp] theorem State.signalTransfer_soenLevel (s : State) (start : State) : (State.signalTransfer start s).soenLevel = s.soenLevel := rfl
@[simp] theorem State.signalTransfer_soLastBit (s : State) (start : State) : (State.signalTransfer start s).soLastBit = s.soLastBit := rfl
@[simp] theorem State.signalTransfer_drq (s : State) (start : State) :
    (State.signalTransfer start s).drq = if start.dma then true else s.drq := rfl
@[simp] theorem State.signalTransfer_intLevel (s : State) (start : State) : (State.signalTransfer start s).intLevel = s.intLevel := rfl
@[simp] theorem State.signalTransfer_intPending (s : State) (start : State) : (State.signalTransfer start s).intPending = s.intPending := rfl
@[simp] theorem State.signalTransfer_draws (s : State) (start : State) : (State.signalTransfer start s).draws = s.draws := rfl
@[simp] theorem State.signalTransfer_turns (s : State) (start : State) : (State.signalTransfer start s).turns = s.turns := rfl
@[simp] theorem State.signalTransfer_dBus (s : State) (start : State) : (State.signalTransfer start s).dBus = s.dBus := rfl
@[simp] theorem State.signalTransfer_xferDir (s : State) (start : State) : (State.signalTransfer start s).xferDir = s.xferDir := rfl
@[simp] theorem State.signalTransfer_xferSpoilt (s : State) (start : State) : (State.signalTransfer start s).xferSpoilt = s.xferSpoilt := rfl
@[simp] theorem State.signalTransfer_siSpoilt (s : State) (start : State) : (State.signalTransfer start s).siSpoilt = s.siSpoilt := rfl
@[simp] theorem State.signalTransfer_soSpoilt (s : State) (start : State) : (State.signalTransfer start s).soSpoilt = s.soSpoilt := rfl

/-! ### nextDraw -/

@[simp] theorem State.nextDraw_irom (s : State) : (s.nextDraw).irom = s.irom := rfl
@[simp] theorem State.nextDraw_pc (s : State) : (s.nextDraw).pc = s.pc := rfl
@[simp] theorem State.nextDraw_stk (s : State) : (s.nextDraw).stk = s.stk := rfl
@[simp] theorem State.nextDraw_ram (s : State) : (s.nextDraw).ram = s.ram := rfl
@[simp] theorem State.nextDraw_dp (s : State) : (s.nextDraw).dp = s.dp := rfl
@[simp] theorem State.nextDraw_drom (s : State) : (s.nextDraw).drom = s.drom := rfl
@[simp] theorem State.nextDraw_rp (s : State) : (s.nextDraw).rp = s.rp := rfl
@[simp] theorem State.nextDraw_k (s : State) : (s.nextDraw).k = s.k := rfl
@[simp] theorem State.nextDraw_l (s : State) : (s.nextDraw).l = s.l := rfl
@[simp] theorem State.nextDraw_accA (s : State) : (s.nextDraw).accA = s.accA := rfl
@[simp] theorem State.nextDraw_accB (s : State) : (s.nextDraw).accB = s.accB := rfl
@[simp] theorem State.nextDraw_flagA (s : State) : (s.nextDraw).flagA = s.flagA := rfl
@[simp] theorem State.nextDraw_flagB (s : State) : (s.nextDraw).flagB = s.flagB := rfl
@[simp] theorem State.nextDraw_tr (s : State) : (s.nextDraw).tr = s.tr := rfl
@[simp] theorem State.nextDraw_sr (s : State) : (s.nextDraw).sr = s.sr := rfl
@[simp] theorem State.nextDraw_dr (s : State) : (s.nextDraw).dr = s.dr := rfl
@[simp] theorem State.nextDraw_si (s : State) : (s.nextDraw).si = s.si := rfl
@[simp] theorem State.nextDraw_sisr (s : State) : (s.nextDraw).sisr = s.sisr := rfl
@[simp] theorem State.nextDraw_sicnt (s : State) : (s.nextDraw).sicnt = s.sicnt := rfl
@[simp] theorem State.nextDraw_siack (s : State) : (s.nextDraw).siack = s.siack := rfl
@[simp] theorem State.nextDraw_so (s : State) : (s.nextDraw).so = s.so := rfl
@[simp] theorem State.nextDraw_sosr (s : State) : (s.nextDraw).sosr = s.sosr := rfl
@[simp] theorem State.nextDraw_socnt (s : State) : (s.nextDraw).socnt = s.socnt := rfl
@[simp] theorem State.nextDraw_sosrBusy (s : State) : (s.nextDraw).sosrBusy = s.sosrBusy := rfl
@[simp] theorem State.nextDraw_soack (s : State) : (s.nextDraw).soack = s.soack := rfl
@[simp] theorem State.nextDraw_sorq (s : State) : (s.nextDraw).sorq = s.sorq := rfl
@[simp] theorem State.nextDraw_soPin (s : State) : (s.nextDraw).soPin = s.soPin := rfl
@[simp] theorem State.nextDraw_soenLevel (s : State) : (s.nextDraw).soenLevel = s.soenLevel := rfl
@[simp] theorem State.nextDraw_soLastBit (s : State) : (s.nextDraw).soLastBit = s.soLastBit := rfl
@[simp] theorem State.nextDraw_drq (s : State) : (s.nextDraw).drq = s.drq := rfl
@[simp] theorem State.nextDraw_intLevel (s : State) : (s.nextDraw).intLevel = s.intLevel := rfl
@[simp] theorem State.nextDraw_intPending (s : State) : (s.nextDraw).intPending = s.intPending := rfl
@[simp] theorem State.nextDraw_draws (s : State) :
    (s.nextDraw).draws = s.draws + 1 := rfl
@[simp] theorem State.nextDraw_turns (s : State) : (s.nextDraw).turns = s.turns := rfl
@[simp] theorem State.nextDraw_dBus (s : State) : (s.nextDraw).dBus = s.dBus := rfl
@[simp] theorem State.nextDraw_xferDir (s : State) : (s.nextDraw).xferDir = s.xferDir := rfl
@[simp] theorem State.nextDraw_xferSpoilt (s : State) : (s.nextDraw).xferSpoilt = s.xferSpoilt := rfl
@[simp] theorem State.nextDraw_siSpoilt (s : State) : (s.nextDraw).siSpoilt = s.siSpoilt := rfl
@[simp] theorem State.nextDraw_soSpoilt (s : State) : (s.nextDraw).soSpoilt = s.soSpoilt := rfl

/-! ### interruptEntry -/

@[simp] theorem State.interruptEntry_irom (s : State) : (s.interruptEntry).irom = s.irom := rfl
@[simp] theorem State.interruptEntry_pc (s : State) :
    (s.interruptEntry).pc = Config.interruptEntry := rfl
@[simp] theorem State.interruptEntry_stk (s : State) :
    (s.interruptEntry).stk = (s.pc :: s.stk).take Config.stackDepth := rfl
@[simp] theorem State.interruptEntry_ram (s : State) : (s.interruptEntry).ram = s.ram := rfl
@[simp] theorem State.interruptEntry_dp (s : State) : (s.interruptEntry).dp = s.dp := rfl
@[simp] theorem State.interruptEntry_drom (s : State) : (s.interruptEntry).drom = s.drom := rfl
@[simp] theorem State.interruptEntry_rp (s : State) : (s.interruptEntry).rp = s.rp := rfl
@[simp] theorem State.interruptEntry_k (s : State) : (s.interruptEntry).k = s.k := rfl
@[simp] theorem State.interruptEntry_l (s : State) : (s.interruptEntry).l = s.l := rfl
@[simp] theorem State.interruptEntry_accA (s : State) : (s.interruptEntry).accA = s.accA := rfl
@[simp] theorem State.interruptEntry_accB (s : State) : (s.interruptEntry).accB = s.accB := rfl
@[simp] theorem State.interruptEntry_flagA (s : State) : (s.interruptEntry).flagA = s.flagA := rfl
@[simp] theorem State.interruptEntry_flagB (s : State) : (s.interruptEntry).flagB = s.flagB := rfl
@[simp] theorem State.interruptEntry_tr (s : State) : (s.interruptEntry).tr = s.tr := rfl
@[simp] theorem State.interruptEntry_sr (s : State) :
    (s.interruptEntry).sr = s.sr &&& ~~~eiBit := rfl
@[simp] theorem State.interruptEntry_dr (s : State) : (s.interruptEntry).dr = s.dr := rfl
@[simp] theorem State.interruptEntry_si (s : State) : (s.interruptEntry).si = s.si := rfl
@[simp] theorem State.interruptEntry_sisr (s : State) : (s.interruptEntry).sisr = s.sisr := rfl
@[simp] theorem State.interruptEntry_sicnt (s : State) : (s.interruptEntry).sicnt = s.sicnt := rfl
@[simp] theorem State.interruptEntry_siack (s : State) : (s.interruptEntry).siack = s.siack := rfl
@[simp] theorem State.interruptEntry_so (s : State) : (s.interruptEntry).so = s.so := rfl
@[simp] theorem State.interruptEntry_sosr (s : State) : (s.interruptEntry).sosr = s.sosr := rfl
@[simp] theorem State.interruptEntry_socnt (s : State) : (s.interruptEntry).socnt = s.socnt := rfl
@[simp] theorem State.interruptEntry_sosrBusy (s : State) : (s.interruptEntry).sosrBusy = s.sosrBusy := rfl
@[simp] theorem State.interruptEntry_soack (s : State) : (s.interruptEntry).soack = s.soack := rfl
@[simp] theorem State.interruptEntry_sorq (s : State) : (s.interruptEntry).sorq = s.sorq := rfl
@[simp] theorem State.interruptEntry_soPin (s : State) : (s.interruptEntry).soPin = s.soPin := rfl
@[simp] theorem State.interruptEntry_soenLevel (s : State) : (s.interruptEntry).soenLevel = s.soenLevel := rfl
@[simp] theorem State.interruptEntry_soLastBit (s : State) : (s.interruptEntry).soLastBit = s.soLastBit := rfl
@[simp] theorem State.interruptEntry_drq (s : State) : (s.interruptEntry).drq = s.drq := rfl
@[simp] theorem State.interruptEntry_intLevel (s : State) : (s.interruptEntry).intLevel = s.intLevel := rfl
@[simp] theorem State.interruptEntry_intPending (s : State) :
    (s.interruptEntry).intPending = false := rfl
@[simp] theorem State.interruptEntry_draws (s : State) : (s.interruptEntry).draws = s.draws := rfl
@[simp] theorem State.interruptEntry_turns (s : State) : (s.interruptEntry).turns = s.turns := rfl
@[simp] theorem State.interruptEntry_dBus (s : State) : (s.interruptEntry).dBus = s.dBus := rfl
@[simp] theorem State.interruptEntry_xferDir (s : State) : (s.interruptEntry).xferDir = s.xferDir := rfl
@[simp] theorem State.interruptEntry_xferSpoilt (s : State) : (s.interruptEntry).xferSpoilt = s.xferSpoilt := rfl
@[simp] theorem State.interruptEntry_siSpoilt (s : State) : (s.interruptEntry).siSpoilt = s.siSpoilt := rfl
@[simp] theorem State.interruptEntry_soSpoilt (s : State) : (s.interruptEntry).soSpoilt = s.soSpoilt := rfl

/-! ### finishTransfer -/

@[simp] theorem State.finishTransfer_irom (s : State) : (s.finishTransfer).irom = s.irom := rfl
@[simp] theorem State.finishTransfer_pc (s : State) : (s.finishTransfer).pc = s.pc := rfl
@[simp] theorem State.finishTransfer_stk (s : State) : (s.finishTransfer).stk = s.stk := rfl
@[simp] theorem State.finishTransfer_ram (s : State) : (s.finishTransfer).ram = s.ram := rfl
@[simp] theorem State.finishTransfer_dp (s : State) : (s.finishTransfer).dp = s.dp := rfl
@[simp] theorem State.finishTransfer_drom (s : State) : (s.finishTransfer).drom = s.drom := rfl
@[simp] theorem State.finishTransfer_rp (s : State) : (s.finishTransfer).rp = s.rp := rfl
@[simp] theorem State.finishTransfer_k (s : State) : (s.finishTransfer).k = s.k := rfl
@[simp] theorem State.finishTransfer_l (s : State) : (s.finishTransfer).l = s.l := rfl
@[simp] theorem State.finishTransfer_accA (s : State) : (s.finishTransfer).accA = s.accA := rfl
@[simp] theorem State.finishTransfer_accB (s : State) : (s.finishTransfer).accB = s.accB := rfl
@[simp] theorem State.finishTransfer_flagA (s : State) : (s.finishTransfer).flagA = s.flagA := rfl
@[simp] theorem State.finishTransfer_flagB (s : State) : (s.finishTransfer).flagB = s.flagB := rfl
@[simp] theorem State.finishTransfer_tr (s : State) : (s.finishTransfer).tr = s.tr := rfl
@[simp] theorem State.finishTransfer_sr (s : State) :
    (s.finishTransfer).sr = if s.dma then s.sr else s.sr &&& ~~~rqmBit := rfl
@[simp] theorem State.finishTransfer_dr (s : State) : (s.finishTransfer).dr = s.dr := rfl
@[simp] theorem State.finishTransfer_si (s : State) : (s.finishTransfer).si = s.si := rfl
@[simp] theorem State.finishTransfer_sisr (s : State) : (s.finishTransfer).sisr = s.sisr := rfl
@[simp] theorem State.finishTransfer_sicnt (s : State) : (s.finishTransfer).sicnt = s.sicnt := rfl
@[simp] theorem State.finishTransfer_siack (s : State) : (s.finishTransfer).siack = s.siack := rfl
@[simp] theorem State.finishTransfer_so (s : State) : (s.finishTransfer).so = s.so := rfl
@[simp] theorem State.finishTransfer_sosr (s : State) : (s.finishTransfer).sosr = s.sosr := rfl
@[simp] theorem State.finishTransfer_socnt (s : State) : (s.finishTransfer).socnt = s.socnt := rfl
@[simp] theorem State.finishTransfer_sosrBusy (s : State) : (s.finishTransfer).sosrBusy = s.sosrBusy := rfl
@[simp] theorem State.finishTransfer_soack (s : State) : (s.finishTransfer).soack = s.soack := rfl
@[simp] theorem State.finishTransfer_sorq (s : State) : (s.finishTransfer).sorq = s.sorq := rfl
@[simp] theorem State.finishTransfer_soPin (s : State) : (s.finishTransfer).soPin = s.soPin := rfl
@[simp] theorem State.finishTransfer_soenLevel (s : State) : (s.finishTransfer).soenLevel = s.soenLevel := rfl
@[simp] theorem State.finishTransfer_soLastBit (s : State) : (s.finishTransfer).soLastBit = s.soLastBit := rfl
@[simp] theorem State.finishTransfer_drq (s : State) :
    (s.finishTransfer).drq = if s.dma then false else s.drq := rfl
@[simp] theorem State.finishTransfer_intLevel (s : State) : (s.finishTransfer).intLevel = s.intLevel := rfl
@[simp] theorem State.finishTransfer_intPending (s : State) : (s.finishTransfer).intPending = s.intPending := rfl
@[simp] theorem State.finishTransfer_draws (s : State) : (s.finishTransfer).draws = s.draws := rfl
@[simp] theorem State.finishTransfer_turns (s : State) : (s.finishTransfer).turns = s.turns := rfl
@[simp] theorem State.finishTransfer_dBus (s : State) : (s.finishTransfer).dBus = s.dBus := rfl
@[simp] theorem State.finishTransfer_xferDir (s : State) : (s.finishTransfer).xferDir = s.xferDir := rfl
@[simp] theorem State.finishTransfer_xferSpoilt (s : State) : (s.finishTransfer).xferSpoilt = s.xferSpoilt := rfl
@[simp] theorem State.finishTransfer_siSpoilt (s : State) : (s.finishTransfer).siSpoilt = s.siSpoilt := rfl
@[simp] theorem State.finishTransfer_soSpoilt (s : State) : (s.finishTransfer).soSpoilt = s.soSpoilt := rfl

/-! ### rst -/

@[simp] theorem rst_irom (s : State) : (rst s).irom = s.irom := rfl
@[simp] theorem rst_pc (s : State) : (rst s).pc = Config.resetEntry := rfl
@[simp] theorem rst_stk (s : State) : (rst s).stk = [] := rfl
@[simp] theorem rst_ram (s : State) : (rst s).ram = s.ramAfterRst := rfl
@[simp] theorem rst_dp (s : State) : (rst s).dp = Config.dpAfterReset s.draws s.dp := rfl
@[simp] theorem rst_drom (s : State) : (rst s).drom = s.drom := rfl
@[simp] theorem rst_rp (s : State) : (rst s).rp = Config.rpAfterReset s.draws s.rp := rfl
@[simp] theorem rst_k (s : State) : (rst s).k = Config.wordAfterReset .k s.draws s.k := rfl
@[simp] theorem rst_l (s : State) : (rst s).l = Config.wordAfterReset .l s.draws s.l := rfl
@[simp] theorem rst_accA (s : State) : (rst s).accA = Config.wordAfterReset .accA s.draws s.accA := rfl
@[simp] theorem rst_accB (s : State) : (rst s).accB = Config.wordAfterReset .accB s.draws s.accB := rfl
@[simp] theorem rst_flagA (s : State) : (rst s).flagA = Flags.zero := rfl
@[simp] theorem rst_flagB (s : State) : (rst s).flagB = Flags.zero := rfl
@[simp] theorem rst_tr (s : State) : (rst s).tr = Config.wordAfterReset .tr s.draws s.tr := rfl
@[simp] theorem rst_sr (s : State) : (rst s).sr = 0#16 := rfl
@[simp] theorem rst_dr (s : State) : (rst s).dr = Config.wordAfterReset .dr s.draws s.dr := rfl
@[simp] theorem rst_si (s : State) : (rst s).si = Config.wordAfterReset .si s.draws s.si := rfl
@[simp] theorem rst_sisr (s : State) : (rst s).sisr = Config.wordAfterReset .sisr s.draws s.sisr := rfl
@[simp] theorem rst_sicnt (s : State) : (rst s).sicnt = 0 := rfl
@[simp] theorem rst_siack (s : State) : (rst s).siack = Config.siackAfterReset s.draws s.siack := rfl
@[simp] theorem rst_so (s : State) : (rst s).so = Config.wordAfterReset .so s.draws s.so := rfl
@[simp] theorem rst_sosr (s : State) : (rst s).sosr = Config.wordAfterReset .sosr s.draws s.sosr := rfl
@[simp] theorem rst_socnt (s : State) : (rst s).socnt = 0 := rfl
@[simp] theorem rst_sosrBusy (s : State) : (rst s).sosrBusy = false := rfl
@[simp] theorem rst_soack (s : State) : (rst s).soack = Config.soackAfterReset s.draws s.soack := rfl
@[simp] theorem rst_sorq (s : State) : (rst s).sorq = false := rfl
@[simp] theorem rst_soPin (s : State) : (rst s).soPin = true := rfl
@[simp] theorem rst_soenLevel (s : State) : (rst s).soenLevel = s.soenLevel := rfl
@[simp] theorem rst_soLastBit (s : State) : (rst s).soLastBit = false := rfl
@[simp] theorem rst_drq (s : State) : (rst s).drq = false := rfl
@[simp] theorem rst_intLevel (s : State) : (rst s).intLevel = s.intLevel := rfl
@[simp] theorem rst_intPending (s : State) : (rst s).intPending = false := rfl
@[simp] theorem rst_draws (s : State) : (rst s).draws = s.draws + 1 := rfl
@[simp] theorem rst_turns (s : State) : (rst s).turns = s.turns := rfl
@[simp] theorem rst_dBus (s : State) : (rst s).dBus = s.dBus := rfl
@[simp] theorem rst_xferDir (s : State) : (rst s).xferDir = none := rfl
@[simp] theorem rst_xferSpoilt (s : State) : (rst s).xferSpoilt = false := rfl
@[simp] theorem rst_siSpoilt (s : State) : (rst s).siSpoilt = false := rfl
@[simp] theorem rst_soSpoilt (s : State) : (rst s).soSpoilt = false := rfl

/-! ### releasePin -/

@[simp] theorem State.releasePin_irom (s : State) : (s.releasePin).irom = s.irom := rfl
@[simp] theorem State.releasePin_pc (s : State) : (s.releasePin).pc = s.pc := rfl
@[simp] theorem State.releasePin_stk (s : State) : (s.releasePin).stk = s.stk := rfl
@[simp] theorem State.releasePin_ram (s : State) : (s.releasePin).ram = s.ram := rfl
@[simp] theorem State.releasePin_dp (s : State) : (s.releasePin).dp = s.dp := rfl
@[simp] theorem State.releasePin_drom (s : State) : (s.releasePin).drom = s.drom := rfl
@[simp] theorem State.releasePin_rp (s : State) : (s.releasePin).rp = s.rp := rfl
@[simp] theorem State.releasePin_k (s : State) : (s.releasePin).k = s.k := rfl
@[simp] theorem State.releasePin_l (s : State) : (s.releasePin).l = s.l := rfl
@[simp] theorem State.releasePin_accA (s : State) : (s.releasePin).accA = s.accA := rfl
@[simp] theorem State.releasePin_accB (s : State) : (s.releasePin).accB = s.accB := rfl
@[simp] theorem State.releasePin_flagA (s : State) : (s.releasePin).flagA = s.flagA := rfl
@[simp] theorem State.releasePin_flagB (s : State) : (s.releasePin).flagB = s.flagB := rfl
@[simp] theorem State.releasePin_tr (s : State) : (s.releasePin).tr = s.tr := rfl
@[simp] theorem State.releasePin_sr (s : State) : (s.releasePin).sr = s.sr := rfl
@[simp] theorem State.releasePin_dr (s : State) : (s.releasePin).dr = s.dr := rfl
@[simp] theorem State.releasePin_si (s : State) : (s.releasePin).si = s.si := rfl
@[simp] theorem State.releasePin_sisr (s : State) : (s.releasePin).sisr = s.sisr := rfl
@[simp] theorem State.releasePin_sicnt (s : State) : (s.releasePin).sicnt = s.sicnt := rfl
@[simp] theorem State.releasePin_siack (s : State) : (s.releasePin).siack = s.siack := rfl
@[simp] theorem State.releasePin_so (s : State) : (s.releasePin).so = s.so := rfl
@[simp] theorem State.releasePin_sosr (s : State) : (s.releasePin).sosr = s.sosr := rfl
@[simp] theorem State.releasePin_socnt (s : State) : (s.releasePin).socnt = s.socnt := rfl
@[simp] theorem State.releasePin_sosrBusy (s : State) : (s.releasePin).sosrBusy = s.sosrBusy := rfl
@[simp] theorem State.releasePin_soack (s : State) : (s.releasePin).soack = s.soack := rfl
@[simp] theorem State.releasePin_sorq (s : State) : (s.releasePin).sorq = s.sorq := rfl
@[simp] theorem State.releasePin_soPin (s : State) : (s.releasePin).soPin = (s.soPin || s.soLastBit) := rfl
@[simp] theorem State.releasePin_soenLevel (s : State) : (s.releasePin).soenLevel = s.soenLevel := rfl
@[simp] theorem State.releasePin_drq (s : State) : (s.releasePin).drq = s.drq := rfl
@[simp] theorem State.releasePin_intLevel (s : State) : (s.releasePin).intLevel = s.intLevel := rfl
@[simp] theorem State.releasePin_intPending (s : State) : (s.releasePin).intPending = s.intPending := rfl
@[simp] theorem State.releasePin_draws (s : State) : (s.releasePin).draws = s.draws := rfl
@[simp] theorem State.releasePin_turns (s : State) : (s.releasePin).turns = s.turns := rfl
@[simp] theorem State.releasePin_dBus (s : State) : (s.releasePin).dBus = s.dBus := rfl
@[simp] theorem State.releasePin_xferDir (s : State) : (s.releasePin).xferDir = s.xferDir := rfl
@[simp] theorem State.releasePin_xferSpoilt (s : State) : (s.releasePin).xferSpoilt = s.xferSpoilt := rfl
@[simp] theorem State.releasePin_siSpoilt (s : State) : (s.releasePin).siSpoilt = s.siSpoilt := rfl
@[simp] theorem State.releasePin_soSpoilt (s : State) : (s.releasePin).soSpoilt = s.soSpoilt := rfl
@[simp] theorem State.releasePin_soLastBit (s : State) : (s.releasePin).soLastBit = false := rfl

/-! ### soenChange -/

@[simp] theorem soenChange_irom (level : Bool) (s : State) : (soenChange level s).irom = s.irom := rfl
@[simp] theorem soenChange_pc (level : Bool) (s : State) : (soenChange level s).pc = s.pc := rfl
@[simp] theorem soenChange_stk (level : Bool) (s : State) : (soenChange level s).stk = s.stk := rfl
@[simp] theorem soenChange_ram (level : Bool) (s : State) : (soenChange level s).ram = s.ram := rfl
@[simp] theorem soenChange_dp (level : Bool) (s : State) : (soenChange level s).dp = s.dp := rfl
@[simp] theorem soenChange_drom (level : Bool) (s : State) : (soenChange level s).drom = s.drom := rfl
@[simp] theorem soenChange_rp (level : Bool) (s : State) : (soenChange level s).rp = s.rp := rfl
@[simp] theorem soenChange_k (level : Bool) (s : State) : (soenChange level s).k = s.k := rfl
@[simp] theorem soenChange_l (level : Bool) (s : State) : (soenChange level s).l = s.l := rfl
@[simp] theorem soenChange_accA (level : Bool) (s : State) : (soenChange level s).accA = s.accA := rfl
@[simp] theorem soenChange_accB (level : Bool) (s : State) : (soenChange level s).accB = s.accB := rfl
@[simp] theorem soenChange_flagA (level : Bool) (s : State) : (soenChange level s).flagA = s.flagA := rfl
@[simp] theorem soenChange_flagB (level : Bool) (s : State) : (soenChange level s).flagB = s.flagB := rfl
@[simp] theorem soenChange_tr (level : Bool) (s : State) : (soenChange level s).tr = s.tr := rfl
@[simp] theorem soenChange_sr (level : Bool) (s : State) : (soenChange level s).sr = s.sr := rfl
@[simp] theorem soenChange_dr (level : Bool) (s : State) : (soenChange level s).dr = s.dr := rfl
@[simp] theorem soenChange_si (level : Bool) (s : State) : (soenChange level s).si = s.si := rfl
@[simp] theorem soenChange_sisr (level : Bool) (s : State) : (soenChange level s).sisr = s.sisr := rfl
@[simp] theorem soenChange_sicnt (level : Bool) (s : State) : (soenChange level s).sicnt = s.sicnt := rfl
@[simp] theorem soenChange_siack (level : Bool) (s : State) : (soenChange level s).siack = s.siack := rfl
@[simp] theorem soenChange_so (level : Bool) (s : State) : (soenChange level s).so = s.so := rfl
@[simp] theorem soenChange_sosr (level : Bool) (s : State) : (soenChange level s).sosr = s.sosr := rfl
@[simp] theorem soenChange_socnt (level : Bool) (s : State) : (soenChange level s).socnt = s.socnt := rfl
@[simp] theorem soenChange_sosrBusy (level : Bool) (s : State) : (soenChange level s).sosrBusy = s.sosrBusy := rfl
@[simp] theorem soenChange_soack (level : Bool) (s : State) : (soenChange level s).soack = s.soack := rfl
@[simp] theorem soenChange_sorq (level : Bool) (s : State) : (soenChange level s).sorq = s.sorq := rfl
@[simp] theorem soenChange_soPin (level : Bool) (s : State) : (soenChange level s).soPin = (level || s.soPin) := rfl
@[simp] theorem soenChange_soenLevel (level : Bool) (s : State) : (soenChange level s).soenLevel = level := rfl
@[simp] theorem soenChange_drq (level : Bool) (s : State) : (soenChange level s).drq = s.drq := rfl
@[simp] theorem soenChange_intLevel (level : Bool) (s : State) : (soenChange level s).intLevel = s.intLevel := rfl
@[simp] theorem soenChange_intPending (level : Bool) (s : State) : (soenChange level s).intPending = s.intPending := rfl
@[simp] theorem soenChange_draws (level : Bool) (s : State) : (soenChange level s).draws = s.draws := rfl
@[simp] theorem soenChange_turns (level : Bool) (s : State) : (soenChange level s).turns = s.turns := rfl
@[simp] theorem soenChange_dBus (level : Bool) (s : State) : (soenChange level s).dBus = s.dBus := rfl
@[simp] theorem soenChange_xferDir (level : Bool) (s : State) : (soenChange level s).xferDir = s.xferDir := rfl
@[simp] theorem soenChange_xferSpoilt (level : Bool) (s : State) : (soenChange level s).xferSpoilt = s.xferSpoilt := rfl
@[simp] theorem soenChange_siSpoilt (level : Bool) (s : State) : (soenChange level s).siSpoilt = s.siSpoilt := rfl
@[simp] theorem soenChange_soSpoilt (level : Bool) (s : State) : (soenChange level s).soSpoilt = s.soSpoilt := rfl
@[simp] theorem soenChange_soLastBit (level : Bool) (s : State) : (soenChange level s).soLastBit = (!level && s.soLastBit) := rfl

/-! ### placeInstruction -/

@[simp] theorem State.placeInstruction_irom (s : State) (w : InstrWord) :
    (s.placeInstruction w).irom = Memory.write s.irom s.pc.toNat w := rfl
@[simp] theorem State.placeInstruction_pc (s : State) (w : InstrWord) : (s.placeInstruction w).pc = s.pc := rfl
@[simp] theorem State.placeInstruction_stk (s : State) (w : InstrWord) : (s.placeInstruction w).stk = s.stk := rfl
@[simp] theorem State.placeInstruction_ram (s : State) (w : InstrWord) : (s.placeInstruction w).ram = s.ram := rfl
@[simp] theorem State.placeInstruction_dp (s : State) (w : InstrWord) : (s.placeInstruction w).dp = s.dp := rfl
@[simp] theorem State.placeInstruction_drom (s : State) (w : InstrWord) : (s.placeInstruction w).drom = s.drom := rfl
@[simp] theorem State.placeInstruction_rp (s : State) (w : InstrWord) : (s.placeInstruction w).rp = s.rp := rfl
@[simp] theorem State.placeInstruction_k (s : State) (w : InstrWord) : (s.placeInstruction w).k = s.k := rfl
@[simp] theorem State.placeInstruction_l (s : State) (w : InstrWord) : (s.placeInstruction w).l = s.l := rfl
@[simp] theorem State.placeInstruction_accA (s : State) (w : InstrWord) : (s.placeInstruction w).accA = s.accA := rfl
@[simp] theorem State.placeInstruction_accB (s : State) (w : InstrWord) : (s.placeInstruction w).accB = s.accB := rfl
@[simp] theorem State.placeInstruction_flagA (s : State) (w : InstrWord) : (s.placeInstruction w).flagA = s.flagA := rfl
@[simp] theorem State.placeInstruction_flagB (s : State) (w : InstrWord) : (s.placeInstruction w).flagB = s.flagB := rfl
@[simp] theorem State.placeInstruction_tr (s : State) (w : InstrWord) : (s.placeInstruction w).tr = s.tr := rfl
@[simp] theorem State.placeInstruction_sr (s : State) (w : InstrWord) : (s.placeInstruction w).sr = s.sr := rfl
@[simp] theorem State.placeInstruction_dr (s : State) (w : InstrWord) : (s.placeInstruction w).dr = s.dr := rfl
@[simp] theorem State.placeInstruction_si (s : State) (w : InstrWord) : (s.placeInstruction w).si = s.si := rfl
@[simp] theorem State.placeInstruction_sisr (s : State) (w : InstrWord) : (s.placeInstruction w).sisr = s.sisr := rfl
@[simp] theorem State.placeInstruction_sicnt (s : State) (w : InstrWord) : (s.placeInstruction w).sicnt = s.sicnt := rfl
@[simp] theorem State.placeInstruction_siack (s : State) (w : InstrWord) : (s.placeInstruction w).siack = s.siack := rfl
@[simp] theorem State.placeInstruction_so (s : State) (w : InstrWord) : (s.placeInstruction w).so = s.so := rfl
@[simp] theorem State.placeInstruction_sosr (s : State) (w : InstrWord) : (s.placeInstruction w).sosr = s.sosr := rfl
@[simp] theorem State.placeInstruction_socnt (s : State) (w : InstrWord) : (s.placeInstruction w).socnt = s.socnt := rfl
@[simp] theorem State.placeInstruction_sosrBusy (s : State) (w : InstrWord) : (s.placeInstruction w).sosrBusy = s.sosrBusy := rfl
@[simp] theorem State.placeInstruction_soack (s : State) (w : InstrWord) : (s.placeInstruction w).soack = s.soack := rfl
@[simp] theorem State.placeInstruction_sorq (s : State) (w : InstrWord) : (s.placeInstruction w).sorq = s.sorq := rfl
@[simp] theorem State.placeInstruction_soPin (s : State) (w : InstrWord) : (s.placeInstruction w).soPin = s.soPin := rfl
@[simp] theorem State.placeInstruction_soenLevel (s : State) (w : InstrWord) : (s.placeInstruction w).soenLevel = s.soenLevel := rfl
@[simp] theorem State.placeInstruction_soLastBit (s : State) (w : InstrWord) : (s.placeInstruction w).soLastBit = s.soLastBit := rfl
@[simp] theorem State.placeInstruction_drq (s : State) (w : InstrWord) : (s.placeInstruction w).drq = s.drq := rfl
@[simp] theorem State.placeInstruction_intLevel (s : State) (w : InstrWord) : (s.placeInstruction w).intLevel = s.intLevel := rfl
@[simp] theorem State.placeInstruction_intPending (s : State) (w : InstrWord) : (s.placeInstruction w).intPending = s.intPending := rfl
@[simp] theorem State.placeInstruction_draws (s : State) (w : InstrWord) : (s.placeInstruction w).draws = s.draws := rfl
@[simp] theorem State.placeInstruction_turns (s : State) (w : InstrWord) : (s.placeInstruction w).turns = s.turns := rfl
@[simp] theorem State.placeInstruction_dBus (s : State) (w : InstrWord) : (s.placeInstruction w).dBus = s.dBus := rfl
@[simp] theorem State.placeInstruction_xferDir (s : State) (w : InstrWord) : (s.placeInstruction w).xferDir = s.xferDir := rfl
@[simp] theorem State.placeInstruction_xferSpoilt (s : State) (w : InstrWord) : (s.placeInstruction w).xferSpoilt = s.xferSpoilt := rfl
@[simp] theorem State.placeInstruction_siSpoilt (s : State) (w : InstrWord) : (s.placeInstruction w).siSpoilt = s.siSpoilt := rfl
@[simp] theorem State.placeInstruction_soSpoilt (s : State) (w : InstrWord) : (s.placeInstruction w).soSpoilt = s.soSpoilt := rfl

/-! ### Reading an accumulator and its flags -/

@[simp] theorem State.acc_accA (s : State) : s.acc .accA = s.accA := rfl
@[simp] theorem State.acc_accB (s : State) : s.acc .accB = s.accB := rfl
@[simp] theorem State.flags_accA (s : State) : s.flags .accA = s.flagA := rfl
@[simp] theorem State.flags_accB (s : State) : s.flags .accB = s.flagB := rfl
@[simp] theorem State.carryOther_accA (s : State) : s.carryOther .accA = s.flagB.c := rfl
@[simp] theorem State.carryOther_accB (s : State) : s.carryOther .accB = s.flagA.c := rfl

end Sys2Proof.Machine
end

