-- ==== Sys2Proof/Laws/Memory.lean ====
section
/-! SUPPORT. The laws of the memories: a read after a write, the canonical form kept by every write, and that memories
which read the same are equal. -/

namespace Sys2Proof.Machine

variable {w : Nat}

@[simp] theorem Memory.read_nil (a : Nat) : Memory.read ([] : Memory w) a = Memory.unlisted w := rfl

theorem Memory.wf_nil (size : Nat) : Memory.wf size ([] : Memory w) := ⟨List.Pairwise.nil, by simp⟩

theorem Memory.wf_tail {size : Nat} {c : Nat × BitVec w} {m : Memory w} (h : Memory.wf size (c :: m)) :
    Memory.wf size m :=
  ⟨(List.pairwise_cons.mp h.1).2, fun d hd => h.2 d (List.mem_cons_of_mem _ hd)⟩

/-- Below its first entry a canonical list reads as unlisted. -/
theorem Memory.read_below {a : Nat} {m : Memory w} (h : ∀ c ∈ m, a < c.1) :
    Memory.read m a = Memory.unlisted w := by
  cases m with
  | nil => rfl
  | cons c m => simp [Memory.read, h c (by simp)]

/-- A read of the written address gives the written word. -/
theorem Memory.read_write_same {size : Nat} {m : Memory w} (h : Memory.wf size m) (a : Nat) (v : BitVec w) :
    Memory.read (Memory.write m a v) a = v := by
  induction m with
  | nil => by_cases hv : v = Memory.unlisted w <;> simp [Memory.write, Memory.read, hv]
  | cons c m ih =>
    obtain ⟨b, u⟩ := c
    have htail : ∀ d ∈ m, b < d.1 := (List.pairwise_cons.mp h.1).1
    unfold Memory.write
    split
    · next hlt => split <;> simp_all [Memory.read]
    · split
      · next hnlt heq =>
        subst heq
        split
        · next hv => rw [Memory.read_below htail, hv]
        · simp [Memory.read]
      · next hnlt hne => simp only [Memory.read, hnlt, hne, if_false]; exact ih (Memory.wf_tail h)

/-- A write leaves every other address alone. -/
theorem Memory.read_write_other {size : Nat} {m : Memory w} (h : Memory.wf size m) {a b : Nat} (hab : b ≠ a)
    (v : BitVec w) : Memory.read (Memory.write m a v) b = Memory.read m b := by
  induction m with
  | nil =>
    by_cases hv : v = Memory.unlisted w
    · simp [Memory.write, hv]
    · simp [Memory.write, hv, Memory.read, hab]
  | cons c m ih =>
    obtain ⟨d, u⟩ := c
    have htail : ∀ e ∈ m, d < e.1 := (List.pairwise_cons.mp h.1).1
    unfold Memory.write
    split
    · next hlt =>
      split
      · rfl
      · by_cases hba : b < a
        · have : b < d := by omega
          simp [Memory.read, hba, this]
        · simp [Memory.read, hba, hab]
    · split
      · next hnlt heq =>
        subst heq
        split
        · by_cases hb : b < a
          · rw [Memory.read_below (fun e he => lt_trans hb (htail e he))]
            simp [Memory.read, hb]
          · simp [Memory.read, hb, hab]
        · by_cases hb : b < a <;> simp [Memory.read, hb, hab]
      · simp only [Memory.read]; rw [ih (Memory.wf_tail h)]

/-- Every entry of a written list is the written one or was there before. -/
theorem Memory.mem_write {m : Memory w} {a : Nat} {v : BitVec w} {c : Nat × BitVec w}
    (h : c ∈ Memory.write m a v) : (c = (a, v) ∧ v ≠ Memory.unlisted w) ∨ c ∈ m := by
  induction m with
  | nil => unfold Memory.write at h; split at h <;> simp_all
  | cons d m ih =>
    obtain ⟨b, u⟩ := d
    unfold Memory.write at h
    split at h
    · split at h
      · exact .inr h
      · rcases List.mem_cons.mp h with rfl | h
        · exact .inl ⟨rfl, ‹_›⟩
        · exact .inr h
    · split at h
      · split at h
        · exact .inr (List.mem_cons_of_mem _ h)
        · rcases List.mem_cons.mp h with rfl | h
          · exact .inl ⟨rfl, ‹_›⟩
          · exact .inr (List.mem_cons_of_mem _ h)
      · rcases List.mem_cons.mp h with rfl | h
        · exact .inr (by simp)
        · rcases ih h with h | h
          · exact .inl h
          · exact .inr (List.mem_cons_of_mem _ h)

/-- A write inside the memory keeps the canonical form. -/
theorem Memory.wf_write {size : Nat} {m : Memory w} (h : Memory.wf size m) {a : Nat} (ha : a < size) (v : BitVec w) :
    Memory.wf size (Memory.write m a v) := by
  refine ⟨?_, ?_⟩
  · induction m with
    | nil => unfold Memory.write; split <;> simp
    | cons d m ih =>
      obtain ⟨b, u⟩ := d
      have hp := List.pairwise_cons.mp h.1
      unfold Memory.write
      split
      · next hlt =>
        split
        · exact h.1
        · refine List.pairwise_cons.mpr ⟨?_, h.1⟩
          intro e he
          rcases List.mem_cons.mp he with rfl | he
          · exact hlt
          · exact lt_trans hlt (hp.1 e he)
      · split
        · next heq =>
          subst heq
          split
          · exact hp.2
          · exact List.pairwise_cons.mpr ⟨hp.1, hp.2⟩
        · refine List.pairwise_cons.mpr ⟨?_, ih (Memory.wf_tail h)⟩
          intro e he
          rcases Memory.mem_write he with ⟨rfl, _⟩ | he
          · show b < a
            omega
          · exact hp.1 e he
  · intro c hc
    rcases Memory.mem_write hc with ⟨rfl, hv⟩ | hc
    · exact ⟨ha, hv⟩
    · exact h.2 c hc

/-- Memories in canonical form that read the same at every address are the same list. -/
theorem Memory.eq_of_read {size : Nat} {m n : Memory w} (hm : Memory.wf size m) (hn : Memory.wf size n)
    (h : ∀ a, Memory.read m a = Memory.read n a) : m = n := by
  induction m generalizing n with
  | nil =>
    cases n with
    | nil => rfl
    | cons c n =>
      have := h c.1
      simp [Memory.read] at this
      exact absurd this.symm (hn.2 c (by simp)).2
  | cons c m ih =>
    cases n with
    | nil =>
      have := h c.1
      simp [Memory.read] at this
      exact absurd this (hm.2 c (by simp)).2
    | cons d n =>
      obtain ⟨a, u⟩ := c
      obtain ⟨b, v⟩ := d
      have hpm := (List.pairwise_cons.mp hm.1).1
      have hpn := (List.pairwise_cons.mp hn.1).1
      have hu := (hm.2 (a, u) (by simp)).2
      have hv := (hn.2 (b, v) (by simp)).2
      have hab : a = b := by
        rcases lt_trichotomy a b with hlt | heq | hgt
        · have := h a; simp [Memory.read, hlt] at this; exact absurd this hu
        · exact heq
        · have := h b; simp [Memory.read, hgt] at this; exact absurd this.symm hv
      subst hab
      have huv : u = v := by have := h a; simpa [Memory.read] using this
      subst huv
      have : m = n := by
        refine ih (Memory.wf_tail hm) (Memory.wf_tail hn) fun e => ?_
        have he := h e
        simp only [Memory.read] at he
        by_cases hlt : e < a
        · rw [Memory.read_below (fun c hc => lt_trans hlt (hpm c hc)),
            Memory.read_below (fun c hc => lt_trans hlt (hpn c hc))]
        · by_cases heq : e = a
          · subst heq; rw [Memory.read_below hpm, Memory.read_below hpn]
          · simpa [hlt, heq] using he
      rw [this]

/-- A rewrite inside the memory keeps the canonical form. -/
theorem Memory.wf_rewrite {size : Nat} {m : Memory w} (h : Memory.wf size m) (f : Nat → BitVec w → BitVec w) {n : Nat}
    (hn : n ≤ size) : Memory.wf size (Memory.rewrite f n m) := by
  induction n with
  | zero => exact h
  | succ n ih => exact Memory.wf_write (ih (by omega)) (by omega) _

/-- A rewrite gives each word below its bound `f` of what it was, and leaves every other word alone. -/
theorem Memory.read_rewrite {size : Nat} {m : Memory w} (h : Memory.wf size m) (f : Nat → BitVec w → BitVec w) {n : Nat}
    (hn : n ≤ size) (a : Nat) :
    Memory.read (Memory.rewrite f n m) a = if a < n then f a (Memory.read m a) else Memory.read m a := by
  induction n with
  | zero => simp [Memory.rewrite]
  | succ n ih =>
    have hw := Memory.wf_rewrite h f (n := n) (by omega)
    simp only [Memory.rewrite]
    by_cases ha : a = n
    · subst ha; rw [Memory.read_write_same hw]; simp
    · rw [Memory.read_write_other hw ha, ih (by omega)]
      exact if_congr (by omega) rfl rfl

/-- RAM: the word read at an address after a word was written at another or the same one. -/
theorem State.ramWord_setRamWord {s : State} (h : Memory.wf Config.ramSize s.ram) (a b : RamAddr) (v : Word) :
    (s.setRamWord a v).ramWord b = if b = a then v else s.ramWord b := by
  unfold State.ramWord
  rw [State.setRamWord_ram]
  split
  · next hba => subst hba; exact Memory.read_write_same h _ _
  · next hba => exact Memory.read_write_other h (fun he => hba (BitVec.eq_of_toNat_eq he)) _

/-- RAM stays canonical: every RAM address is inside the RAM. -/
theorem State.setRamWord_wf {s : State} (h : Memory.wf Config.ramSize s.ram) (a : RamAddr) (v : Word) :
    Memory.wf Config.ramSize (s.setRamWord a v).ram :=
  Memory.wf_write h a.isLt v

/-- RAM after an RST, word by word: the free value of the address and of what it held. -/
theorem State.ramAfterRst_read {s : State} (h : Memory.wf Config.ramSize s.ram) (a : RamAddr) :
    Memory.read s.ramAfterRst a.toNat = Config.ramAfterReset s.draws a.toNat (s.ramWord a) := by
  have ha : a.toNat < Config.ramSize := a.isLt
  unfold State.ramAfterRst
  rw [Memory.read_rewrite h _ (le_refl _), if_pos ha]
  rfl

/-- RAM stays canonical through an RST. -/
theorem State.ramAfterRst_wf {s : State} (h : Memory.wf Config.ramSize s.ram) :
    Memory.wf Config.ramSize s.ramAfterRst := by
  unfold State.ramAfterRst
  exact Memory.wf_rewrite h _ (le_refl _)

/-- The instruction placed at PC is the one that is fetched. -/
theorem State.fetch_placeInstruction {s : State} (h : Memory.wf Config.iromSize s.irom) (x : InstrWord) :
    (s.placeInstruction x).fetch = x :=
  Memory.read_write_same h _ _

end Sys2Proof.Machine
end

