-- ==== Sys2Proof/Laws/Operands.lean ====
section
/-! SUPPORT. What each shared operation of an instruction does, field by field and once: the destination, the source's
side effect, the ALU's write, the pointer fields, the multi-operation, the return. -/

namespace Sys2Proof.Machine

/-! ### destination -/

@[simp] theorem destination_irom (d : Dst) (v : Word) (start s : State) : (destination d v start s).irom = s.irom := by
  cases d <;> rfl
@[simp] theorem destination_pc (d : Dst) (v : Word) (start s : State) : (destination d v start s).pc = s.pc := by
  cases d <;> rfl
@[simp] theorem destination_stk (d : Dst) (v : Word) (start s : State) : (destination d v start s).stk = s.stk := by
  cases d <;> rfl
@[simp] theorem destination_ram (d : Dst) (v : Word) (start s : State) :
    (destination d v start s).ram = (if d = .mem then Memory.write s.ram start.dp.toNat v else s.ram) := by cases d <;> rfl
@[simp] theorem destination_dp (d : Dst) (v : Word) (start s : State) :
    (destination d v start s).dp = (if d = .dp then v.extractLsb' 0 7 else s.dp) := by cases d <;> rfl
@[simp] theorem destination_drom (d : Dst) (v : Word) (start s : State) : (destination d v start s).drom = s.drom := by
  cases d <;> rfl
@[simp] theorem destination_rp (d : Dst) (v : Word) (start s : State) :
    (destination d v start s).rp = (if d = .rp then v.extractLsb' 0 9 else s.rp) := by cases d <;> rfl
@[simp] theorem destination_k (d : Dst) (v : Word) (start s : State) :
    (destination d v start s).k = (if d = .k ∨ d = .klr then v else if d = .klm then start.ramWord (highRamAddr start.dp) else s.k) := by cases d <;> rfl
@[simp] theorem destination_l (d : Dst) (v : Word) (start s : State) :
    (destination d v start s).l = (if d = .l ∨ d = .klm then v else if d = .klr then start.ro .lBus else s.l) := by cases d <;> rfl
@[simp] theorem destination_accA (d : Dst) (v : Word) (start s : State) :
    (destination d v start s).accA = (if d = .a then v else s.accA) := by cases d <;> rfl
@[simp] theorem destination_accB (d : Dst) (v : Word) (start s : State) :
    (destination d v start s).accB = (if d = .b then v else s.accB) := by cases d <;> rfl
@[simp] theorem destination_flagA (d : Dst) (v : Word) (start s : State) : (destination d v start s).flagA = s.flagA := by
  cases d <;> rfl
@[simp] theorem destination_flagB (d : Dst) (v : Word) (start s : State) : (destination d v start s).flagB = s.flagB := by
  cases d <;> rfl
@[simp] theorem destination_tr (d : Dst) (v : Word) (start s : State) :
    (destination d v start s).tr = (if d = .tr then v else s.tr) := by cases d <;> rfl
@[simp] theorem destination_sr (d : Dst) (v : Word) (start s : State) :
    (destination d v start s).sr = (if d = .sr then (s.sr &&& srKept) ||| (v &&& srWritable) else if d = .dr ∧ start.dma = false then s.sr ||| rqmBit else s.sr) := by
  cases d <;> first | rfl | (cases h : start.dma <;> simp [destination, h])
@[simp] theorem destination_dr (d : Dst) (v : Word) (start s : State) :
    (destination d v start s).dr = (if d = .dr then v else s.dr) := by cases d <;> rfl
@[simp] theorem destination_si (d : Dst) (v : Word) (start s : State) : (destination d v start s).si = s.si := by
  cases d <;> rfl
@[simp] theorem destination_sisr (d : Dst) (v : Word) (start s : State) : (destination d v start s).sisr = s.sisr := by
  cases d <;> rfl
@[simp] theorem destination_sicnt (d : Dst) (v : Word) (start s : State) : (destination d v start s).sicnt = s.sicnt := by
  cases d <;> rfl
@[simp] theorem destination_siack (d : Dst) (v : Word) (start s : State) : (destination d v start s).siack = s.siack := by
  cases d <;> rfl
@[simp] theorem destination_so (d : Dst) (v : Word) (start s : State) :
    (destination d v start s).so = (if d = .sol then v else if d = .som then bitrev16 v else s.so) := by cases d <;> rfl
@[simp] theorem destination_sosr (d : Dst) (v : Word) (start s : State) : (destination d v start s).sosr = s.sosr := by
  cases d <;> rfl
@[simp] theorem destination_socnt (d : Dst) (v : Word) (start s : State) : (destination d v start s).socnt = s.socnt := by
  cases d <;> rfl
@[simp] theorem destination_sosrBusy (d : Dst) (v : Word) (start s : State) : (destination d v start s).sosrBusy = s.sosrBusy := by
  cases d <;> rfl
@[simp] theorem destination_soack (d : Dst) (v : Word) (start s : State) :
    (destination d v start s).soack = (if d = .sol ∨ d = .som then true else s.soack) := by cases d <;> rfl
@[simp] theorem destination_sorq (d : Dst) (v : Word) (start s : State) : (destination d v start s).sorq = s.sorq := by
  cases d <;> rfl
@[simp] theorem destination_soPin (d : Dst) (v : Word) (start s : State) : (destination d v start s).soPin = s.soPin := by
  cases d <;> rfl
@[simp] theorem destination_soenLevel (d : Dst) (v : Word) (start s : State) : (destination d v start s).soenLevel = s.soenLevel := by
  cases d <;> rfl
@[simp] theorem destination_soLastBit (d : Dst) (v : Word) (start s : State) : (destination d v start s).soLastBit = s.soLastBit := by
  cases d <;> rfl
@[simp] theorem destination_drq (d : Dst) (v : Word) (start s : State) :
    (destination d v start s).drq = (if d = .dr ∧ start.dma = true then true else s.drq) := by
  cases d <;> first | rfl | (cases h : start.dma <;> simp [destination, h])
@[simp] theorem destination_intLevel (d : Dst) (v : Word) (start s : State) : (destination d v start s).intLevel = s.intLevel := by
  cases d <;> rfl
@[simp] theorem destination_intPending (d : Dst) (v : Word) (start s : State) : (destination d v start s).intPending = s.intPending := by
  cases d <;> rfl
@[simp] theorem destination_draws (d : Dst) (v : Word) (start s : State) : (destination d v start s).draws = s.draws := by
  cases d <;> rfl
@[simp] theorem destination_turns (d : Dst) (v : Word) (start s : State) : (destination d v start s).turns = s.turns := by
  cases d <;> rfl
@[simp] theorem destination_dBus (d : Dst) (v : Word) (start s : State) : (destination d v start s).dBus = s.dBus := by
  cases d <;> rfl
@[simp] theorem destination_xferDir (d : Dst) (v : Word) (start s : State) : (destination d v start s).xferDir = s.xferDir := by
  cases d <;> rfl
@[simp] theorem destination_xferSpoilt (d : Dst) (v : Word) (start s : State) :
    (destination d v start s).xferSpoilt = (if d = .sr then (s.writeSr v).xferSpoilt else s.xferSpoilt) := by cases d <;> rfl
@[simp] theorem destination_siSpoilt (d : Dst) (v : Word) (start s : State) :
    (destination d v start s).siSpoilt = (if d = .sr then (s.writeSr v).siSpoilt else s.siSpoilt) := by cases d <;> rfl
@[simp] theorem destination_soSpoilt (d : Dst) (v : Word) (start s : State) :
    (destination d v start s).soSpoilt = (if d = .sr then (s.writeSr v).soSpoilt else s.soSpoilt) := by cases d <;> rfl

/-! ### sourceEffect -/

@[simp] theorem sourceEffect_irom (r : Src) (start s : State) : (sourceEffect r start s).irom = s.irom := by cases r <;> rfl
@[simp] theorem sourceEffect_pc (r : Src) (start s : State) : (sourceEffect r start s).pc = s.pc := by cases r <;> rfl
@[simp] theorem sourceEffect_stk (r : Src) (start s : State) : (sourceEffect r start s).stk = s.stk := by cases r <;> rfl
@[simp] theorem sourceEffect_ram (r : Src) (start s : State) : (sourceEffect r start s).ram = s.ram := by cases r <;> rfl
@[simp] theorem sourceEffect_dp (r : Src) (start s : State) : (sourceEffect r start s).dp = s.dp := by cases r <;> rfl
@[simp] theorem sourceEffect_drom (r : Src) (start s : State) : (sourceEffect r start s).drom = s.drom := by cases r <;> rfl
@[simp] theorem sourceEffect_rp (r : Src) (start s : State) : (sourceEffect r start s).rp = s.rp := by cases r <;> rfl
@[simp] theorem sourceEffect_k (r : Src) (start s : State) : (sourceEffect r start s).k = s.k := by cases r <;> rfl
@[simp] theorem sourceEffect_l (r : Src) (start s : State) : (sourceEffect r start s).l = s.l := by cases r <;> rfl
@[simp] theorem sourceEffect_accA (r : Src) (start s : State) : (sourceEffect r start s).accA = s.accA := by cases r <;> rfl
@[simp] theorem sourceEffect_accB (r : Src) (start s : State) : (sourceEffect r start s).accB = s.accB := by cases r <;> rfl
@[simp] theorem sourceEffect_flagA (r : Src) (start s : State) : (sourceEffect r start s).flagA = s.flagA := by cases r <;> rfl
@[simp] theorem sourceEffect_flagB (r : Src) (start s : State) : (sourceEffect r start s).flagB = s.flagB := by cases r <;> rfl
@[simp] theorem sourceEffect_tr (r : Src) (start s : State) : (sourceEffect r start s).tr = s.tr := by cases r <;> rfl
@[simp] theorem sourceEffect_sr (r : Src) (start s : State) :
    (sourceEffect r start s).sr = (if r = .dr ∧ start.dma = false then s.sr ||| rqmBit else s.sr) := by
  cases r <;> first | rfl | (cases h : start.dma <;> simp [sourceEffect, h])
@[simp] theorem sourceEffect_dr (r : Src) (start s : State) : (sourceEffect r start s).dr = s.dr := by cases r <;> rfl
@[simp] theorem sourceEffect_si (r : Src) (start s : State) : (sourceEffect r start s).si = s.si := by cases r <;> rfl
@[simp] theorem sourceEffect_sisr (r : Src) (start s : State) : (sourceEffect r start s).sisr = s.sisr := by cases r <;> rfl
@[simp] theorem sourceEffect_sicnt (r : Src) (start s : State) : (sourceEffect r start s).sicnt = s.sicnt := by cases r <;> rfl
@[simp] theorem sourceEffect_siack (r : Src) (start s : State) :
    (sourceEffect r start s).siack = (if r = .sim ∨ r = .sil then false else s.siack) := by cases r <;> rfl
@[simp] theorem sourceEffect_so (r : Src) (start s : State) : (sourceEffect r start s).so = s.so := by cases r <;> rfl
@[simp] theorem sourceEffect_sosr (r : Src) (start s : State) : (sourceEffect r start s).sosr = s.sosr := by cases r <;> rfl
@[simp] theorem sourceEffect_socnt (r : Src) (start s : State) : (sourceEffect r start s).socnt = s.socnt := by cases r <;> rfl
@[simp] theorem sourceEffect_sosrBusy (r : Src) (start s : State) : (sourceEffect r start s).sosrBusy = s.sosrBusy := by cases r <;> rfl
@[simp] theorem sourceEffect_soack (r : Src) (start s : State) : (sourceEffect r start s).soack = s.soack := by cases r <;> rfl
@[simp] theorem sourceEffect_sorq (r : Src) (start s : State) : (sourceEffect r start s).sorq = s.sorq := by cases r <;> rfl
@[simp] theorem sourceEffect_soPin (r : Src) (start s : State) : (sourceEffect r start s).soPin = s.soPin := by cases r <;> rfl
@[simp] theorem sourceEffect_soenLevel (r : Src) (start s : State) : (sourceEffect r start s).soenLevel = s.soenLevel := by cases r <;> rfl
@[simp] theorem sourceEffect_soLastBit (r : Src) (start s : State) : (sourceEffect r start s).soLastBit = s.soLastBit := by cases r <;> rfl
@[simp] theorem sourceEffect_drq (r : Src) (start s : State) :
    (sourceEffect r start s).drq = (if r = .dr ∧ start.dma = true then true else s.drq) := by
  cases r <;> first | rfl | (cases h : start.dma <;> simp [sourceEffect, h])
@[simp] theorem sourceEffect_intLevel (r : Src) (start s : State) : (sourceEffect r start s).intLevel = s.intLevel := by cases r <;> rfl
@[simp] theorem sourceEffect_intPending (r : Src) (start s : State) : (sourceEffect r start s).intPending = s.intPending := by cases r <;> rfl
@[simp] theorem sourceEffect_draws (r : Src) (start s : State) : (sourceEffect r start s).draws = s.draws := by cases r <;> rfl
@[simp] theorem sourceEffect_turns (r : Src) (start s : State) : (sourceEffect r start s).turns = s.turns := by cases r <;> rfl
@[simp] theorem sourceEffect_dBus (r : Src) (start s : State) : (sourceEffect r start s).dBus = s.dBus := by cases r <;> rfl
@[simp] theorem sourceEffect_xferDir (r : Src) (start s : State) : (sourceEffect r start s).xferDir = s.xferDir := by cases r <;> rfl
@[simp] theorem sourceEffect_xferSpoilt (r : Src) (start s : State) : (sourceEffect r start s).xferSpoilt = s.xferSpoilt := by cases r <;> rfl
@[simp] theorem sourceEffect_siSpoilt (r : Src) (start s : State) : (sourceEffect r start s).siSpoilt = s.siSpoilt := by cases r <;> rfl
@[simp] theorem sourceEffect_soSpoilt (r : Src) (start s : State) : (sourceEffect r start s).soSpoilt = s.soSpoilt := by cases r <;> rfl

/-! ### aluWrite -/

@[simp] theorem aluWrite_irom (fn : AluFn) (f : OpFields) (start s : State) : (aluWrite fn f start s).irom = s.irom := by
  unfold aluWrite; split <;> rfl
@[simp] theorem aluWrite_pc (fn : AluFn) (f : OpFields) (start s : State) : (aluWrite fn f start s).pc = s.pc := by
  unfold aluWrite; split <;> rfl
@[simp] theorem aluWrite_stk (fn : AluFn) (f : OpFields) (start s : State) : (aluWrite fn f start s).stk = s.stk := by
  unfold aluWrite; split <;> rfl
@[simp] theorem aluWrite_ram (fn : AluFn) (f : OpFields) (start s : State) : (aluWrite fn f start s).ram = s.ram := by
  unfold aluWrite; split <;> rfl
@[simp] theorem aluWrite_dp (fn : AluFn) (f : OpFields) (start s : State) : (aluWrite fn f start s).dp = s.dp := by
  unfold aluWrite; split <;> rfl
@[simp] theorem aluWrite_drom (fn : AluFn) (f : OpFields) (start s : State) : (aluWrite fn f start s).drom = s.drom := by
  unfold aluWrite; split <;> rfl
@[simp] theorem aluWrite_rp (fn : AluFn) (f : OpFields) (start s : State) : (aluWrite fn f start s).rp = s.rp := by
  unfold aluWrite; split <;> rfl
@[simp] theorem aluWrite_k (fn : AluFn) (f : OpFields) (start s : State) : (aluWrite fn f start s).k = s.k := by
  unfold aluWrite; split <;> rfl
@[simp] theorem aluWrite_l (fn : AluFn) (f : OpFields) (start s : State) : (aluWrite fn f start s).l = s.l := by
  unfold aluWrite; split <;> rfl
@[simp] theorem aluWrite_accA (fn : AluFn) (f : OpFields) (start s : State) :
    (aluWrite fn f start s).accA = (if aluActive fn f = true ∧ f.asl = .accA then (alu fn (aluInputs f start)).r else s.accA) := by
  unfold aluWrite; cases aluActive fn f <;> cases f.asl <;> simp
@[simp] theorem aluWrite_accB (fn : AluFn) (f : OpFields) (start s : State) :
    (aluWrite fn f start s).accB = (if aluActive fn f = true ∧ f.asl = .accB then (alu fn (aluInputs f start)).r else s.accB) := by
  unfold aluWrite; cases aluActive fn f <;> cases f.asl <;> simp
@[simp] theorem aluWrite_flagA (fn : AluFn) (f : OpFields) (start s : State) :
    (aluWrite fn f start s).flagA = (if aluActive fn f = true ∧ f.asl = .accA then (alu fn (aluInputs f start)).flags else s.flagA) := by
  unfold aluWrite; cases aluActive fn f <;> cases f.asl <;> simp
@[simp] theorem aluWrite_flagB (fn : AluFn) (f : OpFields) (start s : State) :
    (aluWrite fn f start s).flagB = (if aluActive fn f = true ∧ f.asl = .accB then (alu fn (aluInputs f start)).flags else s.flagB) := by
  unfold aluWrite; cases aluActive fn f <;> cases f.asl <;> simp
@[simp] theorem aluWrite_tr (fn : AluFn) (f : OpFields) (start s : State) : (aluWrite fn f start s).tr = s.tr := by
  unfold aluWrite; split <;> rfl
@[simp] theorem aluWrite_sr (fn : AluFn) (f : OpFields) (start s : State) : (aluWrite fn f start s).sr = s.sr := by
  unfold aluWrite; split <;> rfl
@[simp] theorem aluWrite_dr (fn : AluFn) (f : OpFields) (start s : State) : (aluWrite fn f start s).dr = s.dr := by
  unfold aluWrite; split <;> rfl
@[simp] theorem aluWrite_si (fn : AluFn) (f : OpFields) (start s : State) : (aluWrite fn f start s).si = s.si := by
  unfold aluWrite; split <;> rfl
@[simp] theorem aluWrite_sisr (fn : AluFn) (f : OpFields) (start s : State) : (aluWrite fn f start s).sisr = s.sisr := by
  unfold aluWrite; split <;> rfl
@[simp] theorem aluWrite_sicnt (fn : AluFn) (f : OpFields) (start s : State) : (aluWrite fn f start s).sicnt = s.sicnt := by
  unfold aluWrite; split <;> rfl
@[simp] theorem aluWrite_siack (fn : AluFn) (f : OpFields) (start s : State) : (aluWrite fn f start s).siack = s.siack := by
  unfold aluWrite; split <;> rfl
@[simp] theorem aluWrite_so (fn : AluFn) (f : OpFields) (start s : State) : (aluWrite fn f start s).so = s.so := by
  unfold aluWrite; split <;> rfl
@[simp] theorem aluWrite_sosr (fn : AluFn) (f : OpFields) (start s : State) : (aluWrite fn f start s).sosr = s.sosr := by
  unfold aluWrite; split <;> rfl
@[simp] theorem aluWrite_socnt (fn : AluFn) (f : OpFields) (start s : State) : (aluWrite fn f start s).socnt = s.socnt := by
  unfold aluWrite; split <;> rfl
@[simp] theorem aluWrite_sosrBusy (fn : AluFn) (f : OpFields) (start s : State) : (aluWrite fn f start s).sosrBusy = s.sosrBusy := by
  unfold aluWrite; split <;> rfl
@[simp] theorem aluWrite_soack (fn : AluFn) (f : OpFields) (start s : State) : (aluWrite fn f start s).soack = s.soack := by
  unfold aluWrite; split <;> rfl
@[simp] theorem aluWrite_sorq (fn : AluFn) (f : OpFields) (start s : State) : (aluWrite fn f start s).sorq = s.sorq := by
  unfold aluWrite; split <;> rfl
@[simp] theorem aluWrite_soPin (fn : AluFn) (f : OpFields) (start s : State) : (aluWrite fn f start s).soPin = s.soPin := by
  unfold aluWrite; split <;> rfl
@[simp] theorem aluWrite_soenLevel (fn : AluFn) (f : OpFields) (start s : State) : (aluWrite fn f start s).soenLevel = s.soenLevel := by
  unfold aluWrite; split <;> rfl
@[simp] theorem aluWrite_soLastBit (fn : AluFn) (f : OpFields) (start s : State) : (aluWrite fn f start s).soLastBit = s.soLastBit := by
  unfold aluWrite; split <;> rfl
@[simp] theorem aluWrite_drq (fn : AluFn) (f : OpFields) (start s : State) : (aluWrite fn f start s).drq = s.drq := by
  unfold aluWrite; split <;> rfl
@[simp] theorem aluWrite_intLevel (fn : AluFn) (f : OpFields) (start s : State) : (aluWrite fn f start s).intLevel = s.intLevel := by
  unfold aluWrite; split <;> rfl
@[simp] theorem aluWrite_intPending (fn : AluFn) (f : OpFields) (start s : State) : (aluWrite fn f start s).intPending = s.intPending := by
  unfold aluWrite; split <;> rfl
@[simp] theorem aluWrite_draws (fn : AluFn) (f : OpFields) (start s : State) : (aluWrite fn f start s).draws = s.draws := by
  unfold aluWrite; split <;> rfl
@[simp] theorem aluWrite_turns (fn : AluFn) (f : OpFields) (start s : State) : (aluWrite fn f start s).turns = s.turns := by
  unfold aluWrite; split <;> rfl
@[simp] theorem aluWrite_dBus (fn : AluFn) (f : OpFields) (start s : State) : (aluWrite fn f start s).dBus = s.dBus := by
  unfold aluWrite; split <;> rfl
@[simp] theorem aluWrite_xferDir (fn : AluFn) (f : OpFields) (start s : State) : (aluWrite fn f start s).xferDir = s.xferDir := by
  unfold aluWrite; split <;> rfl
@[simp] theorem aluWrite_xferSpoilt (fn : AluFn) (f : OpFields) (start s : State) : (aluWrite fn f start s).xferSpoilt = s.xferSpoilt := by
  unfold aluWrite; split <;> rfl
@[simp] theorem aluWrite_siSpoilt (fn : AluFn) (f : OpFields) (start s : State) : (aluWrite fn f start s).siSpoilt = s.siSpoilt := by
  unfold aluWrite; split <;> rfl
@[simp] theorem aluWrite_soSpoilt (fn : AluFn) (f : OpFields) (start s : State) : (aluWrite fn f start s).soSpoilt = s.soSpoilt := by
  unfold aluWrite; split <;> rfl

/-! ### pointerFields -/

@[simp] theorem pointerFields_irom (f : OpFields) (start s : State) :
    (pointerFields f start s).irom = s.irom := rfl
@[simp] theorem pointerFields_pc (f : OpFields) (start s : State) :
    (pointerFields f start s).pc = s.pc := rfl
@[simp] theorem pointerFields_stk (f : OpFields) (start s : State) :
    (pointerFields f start s).stk = s.stk := rfl
@[simp] theorem pointerFields_ram (f : OpFields) (start s : State) :
    (pointerFields f start s).ram = s.ram := rfl
@[simp] theorem pointerFields_dp (f : OpFields) (start s : State) :
    (pointerFields f start s).dp = (if f.dst = .dp then s.dp else dpStep f.dpl f.dphm start.dp) := rfl
@[simp] theorem pointerFields_drom (f : OpFields) (start s : State) :
    (pointerFields f start s).drom = s.drom := rfl
@[simp] theorem pointerFields_rp (f : OpFields) (start s : State) :
    (pointerFields f start s).rp = (if f.dst = .rp then s.rp else rpStep f.rpdcr start.rp) := rfl
@[simp] theorem pointerFields_k (f : OpFields) (start s : State) :
    (pointerFields f start s).k = s.k := rfl
@[simp] theorem pointerFields_l (f : OpFields) (start s : State) :
    (pointerFields f start s).l = s.l := rfl
@[simp] theorem pointerFields_accA (f : OpFields) (start s : State) :
    (pointerFields f start s).accA = s.accA := rfl
@[simp] theorem pointerFields_accB (f : OpFields) (start s : State) :
    (pointerFields f start s).accB = s.accB := rfl
@[simp] theorem pointerFields_flagA (f : OpFields) (start s : State) :
    (pointerFields f start s).flagA = s.flagA := rfl
@[simp] theorem pointerFields_flagB (f : OpFields) (start s : State) :
    (pointerFields f start s).flagB = s.flagB := rfl
@[simp] theorem pointerFields_tr (f : OpFields) (start s : State) :
    (pointerFields f start s).tr = s.tr := rfl
@[simp] theorem pointerFields_sr (f : OpFields) (start s : State) :
    (pointerFields f start s).sr = s.sr := rfl
@[simp] theorem pointerFields_dr (f : OpFields) (start s : State) :
    (pointerFields f start s).dr = s.dr := rfl
@[simp] theorem pointerFields_si (f : OpFields) (start s : State) :
    (pointerFields f start s).si = s.si := rfl
@[simp] theorem pointerFields_sisr (f : OpFields) (start s : State) :
    (pointerFields f start s).sisr = s.sisr := rfl
@[simp] theorem pointerFields_sicnt (f : OpFields) (start s : State) :
    (pointerFields f start s).sicnt = s.sicnt := rfl
@[simp] theorem pointerFields_siack (f : OpFields) (start s : State) :
    (pointerFields f start s).siack = s.siack := rfl
@[simp] theorem pointerFields_so (f : OpFields) (start s : State) :
    (pointerFields f start s).so = s.so := rfl
@[simp] theorem pointerFields_sosr (f : OpFields) (start s : State) :
    (pointerFields f start s).sosr = s.sosr := rfl
@[simp] theorem pointerFields_socnt (f : OpFields) (start s : State) :
    (pointerFields f start s).socnt = s.socnt := rfl
@[simp] theorem pointerFields_sosrBusy (f : OpFields) (start s : State) :
    (pointerFields f start s).sosrBusy = s.sosrBusy := rfl
@[simp] theorem pointerFields_soack (f : OpFields) (start s : State) :
    (pointerFields f start s).soack = s.soack := rfl
@[simp] theorem pointerFields_sorq (f : OpFields) (start s : State) :
    (pointerFields f start s).sorq = s.sorq := rfl
@[simp] theorem pointerFields_soPin (f : OpFields) (start s : State) :
    (pointerFields f start s).soPin = s.soPin := rfl
@[simp] theorem pointerFields_soenLevel (f : OpFields) (start s : State) :
    (pointerFields f start s).soenLevel = s.soenLevel := rfl
@[simp] theorem pointerFields_soLastBit (f : OpFields) (start s : State) :
    (pointerFields f start s).soLastBit = s.soLastBit := rfl
@[simp] theorem pointerFields_drq (f : OpFields) (start s : State) :
    (pointerFields f start s).drq = s.drq := rfl
@[simp] theorem pointerFields_intLevel (f : OpFields) (start s : State) :
    (pointerFields f start s).intLevel = s.intLevel := rfl
@[simp] theorem pointerFields_intPending (f : OpFields) (start s : State) :
    (pointerFields f start s).intPending = s.intPending := rfl
@[simp] theorem pointerFields_draws (f : OpFields) (start s : State) :
    (pointerFields f start s).draws = s.draws := rfl
@[simp] theorem pointerFields_turns (f : OpFields) (start s : State) :
    (pointerFields f start s).turns = s.turns := rfl
@[simp] theorem pointerFields_dBus (f : OpFields) (start s : State) :
    (pointerFields f start s).dBus = s.dBus := rfl
@[simp] theorem pointerFields_xferDir (f : OpFields) (start s : State) :
    (pointerFields f start s).xferDir = s.xferDir := rfl
@[simp] theorem pointerFields_xferSpoilt (f : OpFields) (start s : State) :
    (pointerFields f start s).xferSpoilt = s.xferSpoilt := rfl
@[simp] theorem pointerFields_siSpoilt (f : OpFields) (start s : State) :
    (pointerFields f start s).siSpoilt = s.siSpoilt := rfl
@[simp] theorem pointerFields_soSpoilt (f : OpFields) (start s : State) :
    (pointerFields f start s).soSpoilt = s.soSpoilt := rfl

/-! ### multiOp: what no OP, RT or LDI part touches -/

@[simp] theorem multiOp_irom (fn : AluFn) (f : OpFields) (s : State) : (multiOp fn f s).irom = s.irom := by simp [multiOp]
@[simp] theorem multiOp_pc (fn : AluFn) (f : OpFields) (s : State) : (multiOp fn f s).pc = s.pc := by simp [multiOp]
@[simp] theorem multiOp_stk (fn : AluFn) (f : OpFields) (s : State) : (multiOp fn f s).stk = s.stk := by simp [multiOp]
@[simp] theorem multiOp_drom (fn : AluFn) (f : OpFields) (s : State) : (multiOp fn f s).drom = s.drom := by simp [multiOp]
@[simp] theorem multiOp_si (fn : AluFn) (f : OpFields) (s : State) : (multiOp fn f s).si = s.si := by simp [multiOp]
@[simp] theorem multiOp_sisr (fn : AluFn) (f : OpFields) (s : State) : (multiOp fn f s).sisr = s.sisr := by simp [multiOp]
@[simp] theorem multiOp_sicnt (fn : AluFn) (f : OpFields) (s : State) : (multiOp fn f s).sicnt = s.sicnt := by simp [multiOp]
@[simp] theorem multiOp_sosr (fn : AluFn) (f : OpFields) (s : State) : (multiOp fn f s).sosr = s.sosr := by simp [multiOp]
@[simp] theorem multiOp_socnt (fn : AluFn) (f : OpFields) (s : State) : (multiOp fn f s).socnt = s.socnt := by simp [multiOp]
@[simp] theorem multiOp_sosrBusy (fn : AluFn) (f : OpFields) (s : State) : (multiOp fn f s).sosrBusy = s.sosrBusy := by simp [multiOp]
@[simp] theorem multiOp_sorq (fn : AluFn) (f : OpFields) (s : State) : (multiOp fn f s).sorq = s.sorq := by simp [multiOp]
@[simp] theorem multiOp_soPin (fn : AluFn) (f : OpFields) (s : State) : (multiOp fn f s).soPin = s.soPin := by simp [multiOp]
@[simp] theorem multiOp_soenLevel (fn : AluFn) (f : OpFields) (s : State) : (multiOp fn f s).soenLevel = s.soenLevel := by simp [multiOp]
@[simp] theorem multiOp_soLastBit (fn : AluFn) (f : OpFields) (s : State) : (multiOp fn f s).soLastBit = s.soLastBit := by simp [multiOp]
@[simp] theorem multiOp_intLevel (fn : AluFn) (f : OpFields) (s : State) : (multiOp fn f s).intLevel = s.intLevel := by simp [multiOp]
@[simp] theorem multiOp_intPending (fn : AluFn) (f : OpFields) (s : State) : (multiOp fn f s).intPending = s.intPending := by simp [multiOp]
@[simp] theorem multiOp_turns (fn : AluFn) (f : OpFields) (s : State) : (multiOp fn f s).turns = s.turns := by simp [multiOp]
@[simp] theorem multiOp_dBus (fn : AluFn) (f : OpFields) (s : State) : (multiOp fn f s).dBus = s.dBus := by simp [multiOp]
@[simp] theorem multiOp_xferDir (fn : AluFn) (f : OpFields) (s : State) : (multiOp fn f s).xferDir = s.xferDir := by simp [multiOp]

/-! ### returnTop -/

/-- The return answers a next state exactly when the stack holds an address, and then pops it into PC. -/
theorem State.returnTop_next {s t : State} :
    s.returnTop = .next t ↔ ∃ v rest, s.stk = v :: rest ∧ t = { s with pc := v, stk := rest } := by
  unfold State.returnTop
  split
  · next h => simp [h]
  · next v rest h =>
    simp only [Host.Outcome.next.injEq, h, List.cons.injEq]
    constructor
    · intro e; exact ⟨v, rest, ⟨rfl, rfl⟩, e.symm⟩
    · rintro ⟨v', rest', ⟨rfl, rfl⟩, rfl⟩; rfl

/-- On an empty stack the return is the fault StackUnderflow. -/
theorem State.returnTop_empty {s : State} (h : s.stk = []) : s.returnTop = .fault .stackUnderflow := by
  simp [State.returnTop, h]

/-- A push keeps the stack within its depth. -/
theorem State.push_bounded (s : State) (v : ProgAddr) : (s.push v).stk.length ≤ Config.stackDepth := by
  simp [Config.stackDepth]

end Sys2Proof.Machine
end

