-- ==== Sys2Proof/Laws/PerInstr.lean ====
section
/-! SUPPORT. Statements made per instruction, about its encoding: one lemma per constructor of Instr. -/

namespace Sys2Proof

/-- The fixed bits of an instruction's row of `spec/opcode_table.json`: its mask and its match. -/
def rowBits : Instr → InstrWord × InstrWord
  | .opNop _ => (0x678000#23, 0x000000#23)
  | .opOr _ => (0x678000#23, 0x008000#23)
  | .opAnd _ => (0x678000#23, 0x010000#23)
  | .opXor _ => (0x678000#23, 0x018000#23)
  | .opSub _ => (0x678000#23, 0x020000#23)
  | .opAdd _ => (0x678000#23, 0x028000#23)
  | .opSbb _ => (0x678000#23, 0x030000#23)
  | .opAdc _ => (0x678000#23, 0x038000#23)
  | .opDec _ => (0x678000#23, 0x040000#23)
  | .opInc _ => (0x678000#23, 0x048000#23)
  | .opCmp _ => (0x678000#23, 0x050000#23)
  | .opShr1 _ => (0x678000#23, 0x058000#23)
  | .opShl1 _ => (0x678000#23, 0x060000#23)
  | .opShl2 _ => (0x678000#23, 0x068000#23)
  | .opShl4 _ => (0x678000#23, 0x070000#23)
  | .opXchg _ => (0x678000#23, 0x078000#23)
  | .rtNop _ => (0x678000#23, 0x200000#23)
  | .rtOr _ => (0x678000#23, 0x208000#23)
  | .rtAnd _ => (0x678000#23, 0x210000#23)
  | .rtXor _ => (0x678000#23, 0x218000#23)
  | .rtSub _ => (0x678000#23, 0x220000#23)
  | .rtAdd _ => (0x678000#23, 0x228000#23)
  | .rtSbb _ => (0x678000#23, 0x230000#23)
  | .rtAdc _ => (0x678000#23, 0x238000#23)
  | .rtDec _ => (0x678000#23, 0x240000#23)
  | .rtInc _ => (0x678000#23, 0x248000#23)
  | .rtCmp _ => (0x678000#23, 0x250000#23)
  | .rtShr1 _ => (0x678000#23, 0x258000#23)
  | .rtShl1 _ => (0x678000#23, 0x260000#23)
  | .rtShl2 _ => (0x678000#23, 0x268000#23)
  | .rtShl4 _ => (0x678000#23, 0x270000#23)
  | .rtXchg _ => (0x678000#23, 0x278000#23)
  | .jmp _ => (0x7C0000#23, 0x500000#23)
  | .call _ => (0x7C0000#23, 0x540000#23)
  | .jnca _ => (0x7FE000#23, 0x480000#23)
  | .jca _ => (0x7FE000#23, 0x482000#23)
  | .jncb _ => (0x7FE000#23, 0x484000#23)
  | .jcb _ => (0x7FE000#23, 0x486000#23)
  | .jnza _ => (0x7FE000#23, 0x488000#23)
  | .jza _ => (0x7FE000#23, 0x48A000#23)
  | .jnzb _ => (0x7FE000#23, 0x48C000#23)
  | .jzb _ => (0x7FE000#23, 0x48E000#23)
  | .jnova0 _ => (0x7FE000#23, 0x490000#23)
  | .jova0 _ => (0x7FE000#23, 0x492000#23)
  | .jnovb0 _ => (0x7FE000#23, 0x494000#23)
  | .jovb0 _ => (0x7FE000#23, 0x496000#23)
  | .jnova1 _ => (0x7FE000#23, 0x498000#23)
  | .jova1 _ => (0x7FE000#23, 0x49A000#23)
  | .jnovb1 _ => (0x7FE000#23, 0x49C000#23)
  | .jovb1 _ => (0x7FE000#23, 0x49E000#23)
  | .jnsa0 _ => (0x7FE000#23, 0x4A0000#23)
  | .jsa0 _ => (0x7FE000#23, 0x4A2000#23)
  | .jnsb0 _ => (0x7FE000#23, 0x4A4000#23)
  | .jsb0 _ => (0x7FE000#23, 0x4A6000#23)
  | .jnsa1 _ => (0x7FE000#23, 0x4A8000#23)
  | .jsa1 _ => (0x7FE000#23, 0x4AA000#23)
  | .jnsb1 _ => (0x7FE000#23, 0x4AC000#23)
  | .jsb1 _ => (0x7FE000#23, 0x4AE000#23)
  | .jdpl0 _ => (0x7FE000#23, 0x4B0000#23)
  | .jdplf _ => (0x7FE000#23, 0x4B2000#23)
  | .jnsiak _ => (0x7FE000#23, 0x4B4000#23)
  | .jsiak _ => (0x7FE000#23, 0x4B6000#23)
  | .jnsoak _ => (0x7FE000#23, 0x4B8000#23)
  | .jsoak _ => (0x7FE000#23, 0x4BA000#23)
  | .jnrqm _ => (0x7FE000#23, 0x4BC000#23)
  | .jrqm _ => (0x7FE000#23, 0x4BE000#23)
  | .ldi _ _ => (0x600000#23, 0x600000#23)

/-- An OP/RT word under the mask of its OP code and its ALU field is those two fields alone. -/
theorem encodeOpRt_masked (op : BitVec 2) (fn : AluFn) (f : OpFields) :
    encodeOpRt op fn f &&& 0x678000#23 = (op ++ 0#2 ++ fn.code ++ 0#15 : InstrWord) := by
  apply BitVec.eq_of_getLsbD_eq; intro i hi
  simp only [encodeOpRt, BitVec.getLsbD_append, BitVec.getLsbD_and]; interval_cases i <;> simp

/-- A JP word under the mask of its OP code and BRCH is those two fields alone. -/
theorem encodeJp_masked (brch : BitVec 3) (cnd : BitVec 5) (na : ProgAddr) :
    encodeJp brch cnd na &&& 0x7C0000#23 = (0b10#2 ++ brch ++ 0#18 : InstrWord) := by
  apply BitVec.eq_of_getLsbD_eq; intro i hi
  simp only [encodeJp, BitVec.getLsbD_append, BitVec.getLsbD_and]; interval_cases i <;> simp

/-- A JP word under the mask of its OP code, BRCH and CND is those three fields alone. -/
theorem encodeJp_masked_cnd (brch : BitVec 3) (cnd : BitVec 5) (na : ProgAddr) :
    encodeJp brch cnd na &&& 0x7FE000#23 = (0b10#2 ++ brch ++ cnd ++ 0#13 : InstrWord) := by
  apply BitVec.eq_of_getLsbD_eq; intro i hi
  simp only [encodeJp, BitVec.getLsbD_append, BitVec.getLsbD_and]; interval_cases i <;> simp

/-- An LDI word under the mask of its OP code is the OP code alone. -/
theorem encodeLdi_masked (dst : Dst) (imm : Word) : encodeLdi dst imm &&& 0x600000#23 = 0x600000#23 := by
  apply BitVec.eq_of_getLsbD_eq; intro i hi
  simp only [encodeLdi, BitVec.getLsbD_append, BitVec.getLsbD_and]; interval_cases i <;> simp

/-- The OP field of an OP/RT word. -/
theorem encodeOpRt_op (op : BitVec 2) (fn : AluFn) (f : OpFields) :
    (encodeOpRt op fn f).extractLsb' 21 2 = op := by
  apply BitVec.eq_of_getLsbD_eq; intro i hi
  simp only [encodeOpRt, BitVec.getLsbD_append, BitVec.getLsbD_extractLsb']; interval_cases i <;> simp

/-- An OP/RT word is no JP and no LDI word, so nothing about it can be ill-formed. -/
theorem encodeOpRt_wellFormed (op : BitVec 2) (h : op = 0b00#2 ∨ op = 0b01#2) (fn : AluFn) (f : OpFields) :
    wellFormedWord (encodeOpRt op fn f) = true := by
  have hop := encodeOpRt_op op fn f
  rcases h with rfl | rfl <;> simp [wellFormedWord, isJpWord, isLdiWord, hop]

/-- A JP word of a defined BRCH code, with no condition in a JMP or CALL, is well-formed. -/
theorem encodeJp_wellFormed (brch : BitVec 3) (cnd : BitVec 5) (na : ProgAddr)
    (h : brch = 0b010#3 ∨ ((brch = 0b100#3 ∨ brch = 0b101#3) ∧ cnd = 0#5)) :
    wellFormedWord (encodeJp brch cnd na) = true := by
  have hop : (encodeJp brch cnd na).extractLsb' 21 2 = 0b10#2 := by
    apply BitVec.eq_of_getLsbD_eq; intro i hi; simp only [encodeJp, BitVec.getLsbD_append, BitVec.getLsbD_extractLsb']; interval_cases i <;> simp
  have hb : (encodeJp brch cnd na).extractLsb' 18 3 = brch := by
    apply BitVec.eq_of_getLsbD_eq; intro i hi; simp only [encodeJp, BitVec.getLsbD_append, BitVec.getLsbD_extractLsb']; interval_cases i <;> simp
  have hu : (encodeJp brch cnd na).extractLsb' 0 4 = 0#4 := by
    apply BitVec.eq_of_getLsbD_eq; intro i hi; simp only [encodeJp, BitVec.getLsbD_append, BitVec.getLsbD_extractLsb']; interval_cases i <;> simp
  have hc : (encodeJp brch cnd na).extractLsb' 13 5 = cnd := by
    apply BitVec.eq_of_getLsbD_eq; intro i hi; simp only [encodeJp, BitVec.getLsbD_append, BitVec.getLsbD_extractLsb']; interval_cases i <;> simp
  have hl : isLdiWord (encodeJp brch cnd na) = false := by simp [isLdiWord, hop]
  rcases h with rfl | ⟨rfl | rfl, rfl⟩ <;>
    simp [wellFormedWord, hl, brchDefined, jpUnusedZero, jpCondZero, hb, hu, hc]

/-- Every LDI word is well-formed: D4 is zero. -/
theorem encodeLdi_wellFormed (dst : Dst) (imm : Word) : wellFormedWord (encodeLdi dst imm) = true := by
  have hop : (encodeLdi dst imm).extractLsb' 21 2 = 0b11#2 := by
    apply BitVec.eq_of_getLsbD_eq; intro i hi; simp only [encodeLdi, BitVec.getLsbD_append, BitVec.getLsbD_extractLsb']; interval_cases i <;> simp
  have hu : (encodeLdi dst imm).extractLsb' 4 1 = 0#1 := by
    apply BitVec.eq_of_getLsbD_eq; intro i hi; simp only [encodeLdi, BitVec.getLsbD_append, BitVec.getLsbD_extractLsb']; interval_cases i; simp
  simp [wellFormedWord, isJpWord, hop, ldiUnusedZero, hu]

end Sys2Proof

namespace Sys2Proof.Laws.EncodesRow

/-- The word of the instruction carries the fixed bits of its row of the opcode table, and is one an assembler
writes: every ignored bit is zero. -/
def Statement (i : Instr) : Prop :=
  encode i &&& (rowBits i).1 = (rowBits i).2 ∧ wellFormedWord (encode i) = true

theorem opNop (f : OpFields) : Statement (.opNop f) :=
  ⟨encodeOpRt_masked _ .nop f, encodeOpRt_wellFormed _ (.inl rfl) .nop f⟩
theorem opOr (f : OpFields) : Statement (.opOr f) :=
  ⟨encodeOpRt_masked _ .or f, encodeOpRt_wellFormed _ (.inl rfl) .or f⟩
theorem opAnd (f : OpFields) : Statement (.opAnd f) :=
  ⟨encodeOpRt_masked _ .and f, encodeOpRt_wellFormed _ (.inl rfl) .and f⟩
theorem opXor (f : OpFields) : Statement (.opXor f) :=
  ⟨encodeOpRt_masked _ .xor f, encodeOpRt_wellFormed _ (.inl rfl) .xor f⟩
theorem opSub (f : OpFields) : Statement (.opSub f) :=
  ⟨encodeOpRt_masked _ .sub f, encodeOpRt_wellFormed _ (.inl rfl) .sub f⟩
theorem opAdd (f : OpFields) : Statement (.opAdd f) :=
  ⟨encodeOpRt_masked _ .add f, encodeOpRt_wellFormed _ (.inl rfl) .add f⟩
theorem opSbb (f : OpFields) : Statement (.opSbb f) :=
  ⟨encodeOpRt_masked _ .sbb f, encodeOpRt_wellFormed _ (.inl rfl) .sbb f⟩
theorem opAdc (f : OpFields) : Statement (.opAdc f) :=
  ⟨encodeOpRt_masked _ .adc f, encodeOpRt_wellFormed _ (.inl rfl) .adc f⟩
theorem opDec (f : OpFields) : Statement (.opDec f) :=
  ⟨encodeOpRt_masked _ .dec f, encodeOpRt_wellFormed _ (.inl rfl) .dec f⟩
theorem opInc (f : OpFields) : Statement (.opInc f) :=
  ⟨encodeOpRt_masked _ .inc f, encodeOpRt_wellFormed _ (.inl rfl) .inc f⟩
theorem opCmp (f : OpFields) : Statement (.opCmp f) :=
  ⟨encodeOpRt_masked _ .cmp f, encodeOpRt_wellFormed _ (.inl rfl) .cmp f⟩
theorem opShr1 (f : OpFields) : Statement (.opShr1 f) :=
  ⟨encodeOpRt_masked _ .shr1 f, encodeOpRt_wellFormed _ (.inl rfl) .shr1 f⟩
theorem opShl1 (f : OpFields) : Statement (.opShl1 f) :=
  ⟨encodeOpRt_masked _ .shl1 f, encodeOpRt_wellFormed _ (.inl rfl) .shl1 f⟩
theorem opShl2 (f : OpFields) : Statement (.opShl2 f) :=
  ⟨encodeOpRt_masked _ .shl2 f, encodeOpRt_wellFormed _ (.inl rfl) .shl2 f⟩
theorem opShl4 (f : OpFields) : Statement (.opShl4 f) :=
  ⟨encodeOpRt_masked _ .shl4 f, encodeOpRt_wellFormed _ (.inl rfl) .shl4 f⟩
theorem opXchg (f : OpFields) : Statement (.opXchg f) :=
  ⟨encodeOpRt_masked _ .xchg f, encodeOpRt_wellFormed _ (.inl rfl) .xchg f⟩
theorem rtNop (f : OpFields) : Statement (.rtNop f) :=
  ⟨encodeOpRt_masked _ .nop f, encodeOpRt_wellFormed _ (.inr rfl) .nop f⟩
theorem rtOr (f : OpFields) : Statement (.rtOr f) :=
  ⟨encodeOpRt_masked _ .or f, encodeOpRt_wellFormed _ (.inr rfl) .or f⟩
theorem rtAnd (f : OpFields) : Statement (.rtAnd f) :=
  ⟨encodeOpRt_masked _ .and f, encodeOpRt_wellFormed _ (.inr rfl) .and f⟩
theorem rtXor (f : OpFields) : Statement (.rtXor f) :=
  ⟨encodeOpRt_masked _ .xor f, encodeOpRt_wellFormed _ (.inr rfl) .xor f⟩
theorem rtSub (f : OpFields) : Statement (.rtSub f) :=
  ⟨encodeOpRt_masked _ .sub f, encodeOpRt_wellFormed _ (.inr rfl) .sub f⟩
theorem rtAdd (f : OpFields) : Statement (.rtAdd f) :=
  ⟨encodeOpRt_masked _ .add f, encodeOpRt_wellFormed _ (.inr rfl) .add f⟩
theorem rtSbb (f : OpFields) : Statement (.rtSbb f) :=
  ⟨encodeOpRt_masked _ .sbb f, encodeOpRt_wellFormed _ (.inr rfl) .sbb f⟩
theorem rtAdc (f : OpFields) : Statement (.rtAdc f) :=
  ⟨encodeOpRt_masked _ .adc f, encodeOpRt_wellFormed _ (.inr rfl) .adc f⟩
theorem rtDec (f : OpFields) : Statement (.rtDec f) :=
  ⟨encodeOpRt_masked _ .dec f, encodeOpRt_wellFormed _ (.inr rfl) .dec f⟩
theorem rtInc (f : OpFields) : Statement (.rtInc f) :=
  ⟨encodeOpRt_masked _ .inc f, encodeOpRt_wellFormed _ (.inr rfl) .inc f⟩
theorem rtCmp (f : OpFields) : Statement (.rtCmp f) :=
  ⟨encodeOpRt_masked _ .cmp f, encodeOpRt_wellFormed _ (.inr rfl) .cmp f⟩
theorem rtShr1 (f : OpFields) : Statement (.rtShr1 f) :=
  ⟨encodeOpRt_masked _ .shr1 f, encodeOpRt_wellFormed _ (.inr rfl) .shr1 f⟩
theorem rtShl1 (f : OpFields) : Statement (.rtShl1 f) :=
  ⟨encodeOpRt_masked _ .shl1 f, encodeOpRt_wellFormed _ (.inr rfl) .shl1 f⟩
theorem rtShl2 (f : OpFields) : Statement (.rtShl2 f) :=
  ⟨encodeOpRt_masked _ .shl2 f, encodeOpRt_wellFormed _ (.inr rfl) .shl2 f⟩
theorem rtShl4 (f : OpFields) : Statement (.rtShl4 f) :=
  ⟨encodeOpRt_masked _ .shl4 f, encodeOpRt_wellFormed _ (.inr rfl) .shl4 f⟩
theorem rtXchg (f : OpFields) : Statement (.rtXchg f) :=
  ⟨encodeOpRt_masked _ .xchg f, encodeOpRt_wellFormed _ (.inr rfl) .xchg f⟩
theorem jmp (na : ProgAddr) : Statement (.jmp na) :=
  ⟨encodeJp_masked _ _ na, encodeJp_wellFormed _ _ na (by decide)⟩
theorem call (na : ProgAddr) : Statement (.call na) :=
  ⟨encodeJp_masked _ _ na, encodeJp_wellFormed _ _ na (by decide)⟩
theorem jnca (na : ProgAddr) : Statement (.jnca na) :=
  ⟨encodeJp_masked_cnd _ _ na, encodeJp_wellFormed _ _ na (by decide)⟩
theorem jca (na : ProgAddr) : Statement (.jca na) :=
  ⟨encodeJp_masked_cnd _ _ na, encodeJp_wellFormed _ _ na (by decide)⟩
theorem jncb (na : ProgAddr) : Statement (.jncb na) :=
  ⟨encodeJp_masked_cnd _ _ na, encodeJp_wellFormed _ _ na (by decide)⟩
theorem jcb (na : ProgAddr) : Statement (.jcb na) :=
  ⟨encodeJp_masked_cnd _ _ na, encodeJp_wellFormed _ _ na (by decide)⟩
theorem jnza (na : ProgAddr) : Statement (.jnza na) :=
  ⟨encodeJp_masked_cnd _ _ na, encodeJp_wellFormed _ _ na (by decide)⟩
theorem jza (na : ProgAddr) : Statement (.jza na) :=
  ⟨encodeJp_masked_cnd _ _ na, encodeJp_wellFormed _ _ na (by decide)⟩
theorem jnzb (na : ProgAddr) : Statement (.jnzb na) :=
  ⟨encodeJp_masked_cnd _ _ na, encodeJp_wellFormed _ _ na (by decide)⟩
theorem jzb (na : ProgAddr) : Statement (.jzb na) :=
  ⟨encodeJp_masked_cnd _ _ na, encodeJp_wellFormed _ _ na (by decide)⟩
theorem jnova0 (na : ProgAddr) : Statement (.jnova0 na) :=
  ⟨encodeJp_masked_cnd _ _ na, encodeJp_wellFormed _ _ na (by decide)⟩
theorem jova0 (na : ProgAddr) : Statement (.jova0 na) :=
  ⟨encodeJp_masked_cnd _ _ na, encodeJp_wellFormed _ _ na (by decide)⟩
theorem jnovb0 (na : ProgAddr) : Statement (.jnovb0 na) :=
  ⟨encodeJp_masked_cnd _ _ na, encodeJp_wellFormed _ _ na (by decide)⟩
theorem jovb0 (na : ProgAddr) : Statement (.jovb0 na) :=
  ⟨encodeJp_masked_cnd _ _ na, encodeJp_wellFormed _ _ na (by decide)⟩
theorem jnova1 (na : ProgAddr) : Statement (.jnova1 na) :=
  ⟨encodeJp_masked_cnd _ _ na, encodeJp_wellFormed _ _ na (by decide)⟩
theorem jova1 (na : ProgAddr) : Statement (.jova1 na) :=
  ⟨encodeJp_masked_cnd _ _ na, encodeJp_wellFormed _ _ na (by decide)⟩
theorem jnovb1 (na : ProgAddr) : Statement (.jnovb1 na) :=
  ⟨encodeJp_masked_cnd _ _ na, encodeJp_wellFormed _ _ na (by decide)⟩
theorem jovb1 (na : ProgAddr) : Statement (.jovb1 na) :=
  ⟨encodeJp_masked_cnd _ _ na, encodeJp_wellFormed _ _ na (by decide)⟩
theorem jnsa0 (na : ProgAddr) : Statement (.jnsa0 na) :=
  ⟨encodeJp_masked_cnd _ _ na, encodeJp_wellFormed _ _ na (by decide)⟩
theorem jsa0 (na : ProgAddr) : Statement (.jsa0 na) :=
  ⟨encodeJp_masked_cnd _ _ na, encodeJp_wellFormed _ _ na (by decide)⟩
theorem jnsb0 (na : ProgAddr) : Statement (.jnsb0 na) :=
  ⟨encodeJp_masked_cnd _ _ na, encodeJp_wellFormed _ _ na (by decide)⟩
theorem jsb0 (na : ProgAddr) : Statement (.jsb0 na) :=
  ⟨encodeJp_masked_cnd _ _ na, encodeJp_wellFormed _ _ na (by decide)⟩
theorem jnsa1 (na : ProgAddr) : Statement (.jnsa1 na) :=
  ⟨encodeJp_masked_cnd _ _ na, encodeJp_wellFormed _ _ na (by decide)⟩
theorem jsa1 (na : ProgAddr) : Statement (.jsa1 na) :=
  ⟨encodeJp_masked_cnd _ _ na, encodeJp_wellFormed _ _ na (by decide)⟩
theorem jnsb1 (na : ProgAddr) : Statement (.jnsb1 na) :=
  ⟨encodeJp_masked_cnd _ _ na, encodeJp_wellFormed _ _ na (by decide)⟩
theorem jsb1 (na : ProgAddr) : Statement (.jsb1 na) :=
  ⟨encodeJp_masked_cnd _ _ na, encodeJp_wellFormed _ _ na (by decide)⟩
theorem jdpl0 (na : ProgAddr) : Statement (.jdpl0 na) :=
  ⟨encodeJp_masked_cnd _ _ na, encodeJp_wellFormed _ _ na (by decide)⟩
theorem jdplf (na : ProgAddr) : Statement (.jdplf na) :=
  ⟨encodeJp_masked_cnd _ _ na, encodeJp_wellFormed _ _ na (by decide)⟩
theorem jnsiak (na : ProgAddr) : Statement (.jnsiak na) :=
  ⟨encodeJp_masked_cnd _ _ na, encodeJp_wellFormed _ _ na (by decide)⟩
theorem jsiak (na : ProgAddr) : Statement (.jsiak na) :=
  ⟨encodeJp_masked_cnd _ _ na, encodeJp_wellFormed _ _ na (by decide)⟩
theorem jnsoak (na : ProgAddr) : Statement (.jnsoak na) :=
  ⟨encodeJp_masked_cnd _ _ na, encodeJp_wellFormed _ _ na (by decide)⟩
theorem jsoak (na : ProgAddr) : Statement (.jsoak na) :=
  ⟨encodeJp_masked_cnd _ _ na, encodeJp_wellFormed _ _ na (by decide)⟩
theorem jnrqm (na : ProgAddr) : Statement (.jnrqm na) :=
  ⟨encodeJp_masked_cnd _ _ na, encodeJp_wellFormed _ _ na (by decide)⟩
theorem jrqm (na : ProgAddr) : Statement (.jrqm na) :=
  ⟨encodeJp_masked_cnd _ _ na, encodeJp_wellFormed _ _ na (by decide)⟩
theorem ldi (dst : Dst) (imm : Word) : Statement (.ldi dst imm) :=
  ⟨encodeLdi_masked dst imm, encodeLdi_wellFormed dst imm⟩

end Sys2Proof.Laws.EncodesRow
end

