-- ==== Sys2Proof/Laws/Step.lean ====
section
/-! SUPPORT. What one instruction, one port action and one step can do, said once: every later proof cites these in
place of unfolding exec or step. -/

namespace Sys2Proof.Machine

/-! ### exec, by the shape of the instruction -/

/-- Every OP row runs the multi-operation and advances PC. -/
theorem exec_opInstr (fn : AluFn) (f : OpFields) (s : State) :
    exec (opInstr fn f) s = .next (multiOp fn f s).advance := by cases fn <;> rfl

/-- Every RT row runs the multi-operation and returns. -/
theorem exec_rtInstr (fn : AluFn) (f : OpFields) (s : State) :
    exec (rtInstr fn f) s = (multiOp fn f s).returnTop := by cases fn <;> rfl

/-- Every conditional jump goes to NA or to the next address. -/
theorem exec_condJump (c : Cond) (na : ProgAddr) (s : State) :
    ∃ taken, exec (condJump c na) s = .next (s.jumpTo (if taken = true then na else nextPc s.pc)) := by
  cases c <;> exact ⟨_, rfl⟩

/-- Every instruction is an OP row, an RT row, JMP, CALL, a conditional jump or LDI. -/
theorem Instr_shape (i : Instr) :
    (∃ fn f, i = opInstr fn f) ∨ (∃ fn f, i = rtInstr fn f) ∨ (∃ na, i = .jmp na) ∨ (∃ na, i = .call na)
      ∨ (∃ c na, i = condJump c na) ∨ (∃ d v, i = .ldi d v) := by
  cases i
  case opNop f => exact .inl ⟨.nop, f, rfl⟩
  case opOr f => exact .inl ⟨.or, f, rfl⟩
  case opAnd f => exact .inl ⟨.and, f, rfl⟩
  case opXor f => exact .inl ⟨.xor, f, rfl⟩
  case opSub f => exact .inl ⟨.sub, f, rfl⟩
  case opAdd f => exact .inl ⟨.add, f, rfl⟩
  case opSbb f => exact .inl ⟨.sbb, f, rfl⟩
  case opAdc f => exact .inl ⟨.adc, f, rfl⟩
  case opDec f => exact .inl ⟨.dec, f, rfl⟩
  case opInc f => exact .inl ⟨.inc, f, rfl⟩
  case opCmp f => exact .inl ⟨.cmp, f, rfl⟩
  case opShr1 f => exact .inl ⟨.shr1, f, rfl⟩
  case opShl1 f => exact .inl ⟨.shl1, f, rfl⟩
  case opShl2 f => exact .inl ⟨.shl2, f, rfl⟩
  case opShl4 f => exact .inl ⟨.shl4, f, rfl⟩
  case opXchg f => exact .inl ⟨.xchg, f, rfl⟩
  case rtNop f => exact .inr (.inl ⟨.nop, f, rfl⟩)
  case rtOr f => exact .inr (.inl ⟨.or, f, rfl⟩)
  case rtAnd f => exact .inr (.inl ⟨.and, f, rfl⟩)
  case rtXor f => exact .inr (.inl ⟨.xor, f, rfl⟩)
  case rtSub f => exact .inr (.inl ⟨.sub, f, rfl⟩)
  case rtAdd f => exact .inr (.inl ⟨.add, f, rfl⟩)
  case rtSbb f => exact .inr (.inl ⟨.sbb, f, rfl⟩)
  case rtAdc f => exact .inr (.inl ⟨.adc, f, rfl⟩)
  case rtDec f => exact .inr (.inl ⟨.dec, f, rfl⟩)
  case rtInc f => exact .inr (.inl ⟨.inc, f, rfl⟩)
  case rtCmp f => exact .inr (.inl ⟨.cmp, f, rfl⟩)
  case rtShr1 f => exact .inr (.inl ⟨.shr1, f, rfl⟩)
  case rtShl1 f => exact .inr (.inl ⟨.shl1, f, rfl⟩)
  case rtShl2 f => exact .inr (.inl ⟨.shl2, f, rfl⟩)
  case rtShl4 f => exact .inr (.inl ⟨.shl4, f, rfl⟩)
  case rtXchg f => exact .inr (.inl ⟨.xchg, f, rfl⟩)
  case jmp na => exact .inr (.inr (.inl ⟨na, rfl⟩))
  case call na => exact .inr (.inr (.inr (.inl ⟨na, rfl⟩)))
  case jnca na => exact .inr (.inr (.inr (.inr (.inl ⟨.jnca, na, rfl⟩))))
  case jca na => exact .inr (.inr (.inr (.inr (.inl ⟨.jca, na, rfl⟩))))
  case jncb na => exact .inr (.inr (.inr (.inr (.inl ⟨.jncb, na, rfl⟩))))
  case jcb na => exact .inr (.inr (.inr (.inr (.inl ⟨.jcb, na, rfl⟩))))
  case jnza na => exact .inr (.inr (.inr (.inr (.inl ⟨.jnza, na, rfl⟩))))
  case jza na => exact .inr (.inr (.inr (.inr (.inl ⟨.jza, na, rfl⟩))))
  case jnzb na => exact .inr (.inr (.inr (.inr (.inl ⟨.jnzb, na, rfl⟩))))
  case jzb na => exact .inr (.inr (.inr (.inr (.inl ⟨.jzb, na, rfl⟩))))
  case jnova0 na => exact .inr (.inr (.inr (.inr (.inl ⟨.jnova0, na, rfl⟩))))
  case jova0 na => exact .inr (.inr (.inr (.inr (.inl ⟨.jova0, na, rfl⟩))))
  case jnovb0 na => exact .inr (.inr (.inr (.inr (.inl ⟨.jnovb0, na, rfl⟩))))
  case jovb0 na => exact .inr (.inr (.inr (.inr (.inl ⟨.jovb0, na, rfl⟩))))
  case jnova1 na => exact .inr (.inr (.inr (.inr (.inl ⟨.jnova1, na, rfl⟩))))
  case jova1 na => exact .inr (.inr (.inr (.inr (.inl ⟨.jova1, na, rfl⟩))))
  case jnovb1 na => exact .inr (.inr (.inr (.inr (.inl ⟨.jnovb1, na, rfl⟩))))
  case jovb1 na => exact .inr (.inr (.inr (.inr (.inl ⟨.jovb1, na, rfl⟩))))
  case jnsa0 na => exact .inr (.inr (.inr (.inr (.inl ⟨.jnsa0, na, rfl⟩))))
  case jsa0 na => exact .inr (.inr (.inr (.inr (.inl ⟨.jsa0, na, rfl⟩))))
  case jnsb0 na => exact .inr (.inr (.inr (.inr (.inl ⟨.jnsb0, na, rfl⟩))))
  case jsb0 na => exact .inr (.inr (.inr (.inr (.inl ⟨.jsb0, na, rfl⟩))))
  case jnsa1 na => exact .inr (.inr (.inr (.inr (.inl ⟨.jnsa1, na, rfl⟩))))
  case jsa1 na => exact .inr (.inr (.inr (.inr (.inl ⟨.jsa1, na, rfl⟩))))
  case jnsb1 na => exact .inr (.inr (.inr (.inr (.inl ⟨.jnsb1, na, rfl⟩))))
  case jsb1 na => exact .inr (.inr (.inr (.inr (.inl ⟨.jsb1, na, rfl⟩))))
  case jdpl0 na => exact .inr (.inr (.inr (.inr (.inl ⟨.jdpl0, na, rfl⟩))))
  case jdplf na => exact .inr (.inr (.inr (.inr (.inl ⟨.jdplf, na, rfl⟩))))
  case jnsiak na => exact .inr (.inr (.inr (.inr (.inl ⟨.jnsiak, na, rfl⟩))))
  case jsiak na => exact .inr (.inr (.inr (.inr (.inl ⟨.jsiak, na, rfl⟩))))
  case jnsoak na => exact .inr (.inr (.inr (.inr (.inl ⟨.jnsoak, na, rfl⟩))))
  case jsoak na => exact .inr (.inr (.inr (.inr (.inl ⟨.jsoak, na, rfl⟩))))
  case jnrqm na => exact .inr (.inr (.inr (.inr (.inl ⟨.jnrqm, na, rfl⟩))))
  case jrqm na => exact .inr (.inr (.inr (.inr (.inl ⟨.jrqm, na, rfl⟩))))
  case ldi d v => exact .inr (.inr (.inr (.inr (.inr ⟨d, v, rfl⟩))))

/-- If an instruction answers a next state, this is how: the multi-operation with PC + 1 (OP), the multi-operation
with the popped PC (RT), a write of PC alone (JMP, a conditional jump), CALL's push and jump, or LDI. -/
theorem exec_next {i : Instr} {s t : State} (h : exec i s = .next t) :
    (∃ fn f, i = opInstr fn f ∧ t = (multiOp fn f s).advance)
    ∨ (∃ fn f v rest, i = rtInstr fn f ∧ s.stk = v :: rest ∧ t = { multiOp fn f s with pc := v, stk := rest })
    ∨ (∃ target, t = s.jumpTo target)
    ∨ (∃ na, i = .call na ∧ t = (s.push (nextPc s.pc)).jumpTo na)
    ∨ (∃ d v, i = .ldi d v ∧ t = (destination d v s s).nextDraw.advance) := by
  rcases Instr_shape i with ⟨fn, f, rfl⟩ | ⟨fn, f, rfl⟩ | ⟨na, rfl⟩ | ⟨na, rfl⟩ | ⟨c, na, rfl⟩ | ⟨d, v, rfl⟩
  · rw [exec_opInstr] at h; cases h; exact .inl ⟨fn, f, rfl, rfl⟩
  · rw [exec_rtInstr] at h
    obtain ⟨v, rest, hs, rfl⟩ := State.returnTop_next.mp h
    exact .inr (.inl ⟨fn, f, v, rest, rfl, by simpa using hs, rfl⟩)
  · cases h; exact .inr (.inr (.inl ⟨na, rfl⟩))
  · cases h; exact .inr (.inr (.inr (.inl ⟨na, rfl, rfl⟩)))
  · obtain ⟨b, hb⟩ := exec_condJump c na s
    rw [hb] at h; cases h; exact .inr (.inr (.inl ⟨_, rfl⟩))
  · cases h; exact .inr (.inr (.inr (.inr ⟨d, v, rfl, rfl⟩)))

/-! ### The agents' actions -/

/-- INT rising answers a next state only from a low pin. -/
theorem intRise_next {s t : State} (h : intRise s = .next t) :
    s.intLevel = false ∧ t = { s with intLevel := true, intPending := s.intPending || s.ei } := by
  unfold intRise at h; split at h
  · cases h
  · next hl => cases h; exact ⟨by simpa using hl, rfl⟩

/-- INT falling answers a next state only from a high pin. -/
theorem intFall_next {s t : State} (h : intFall s = .next t) :
    s.intLevel = true ∧ t = { s with intLevel := false } := by
  unfold intFall at h; split at h
  · next hl => cases h; exact ⟨hl, rfl⟩
  · cases h

/-- A bus cycle that answers a next state left the bus idle, wrote a byte of DR, read a byte of DR or read the status
byte; a transfer with DR was inside the guarantee. -/
theorem hostCycle_next {c : BusCycle} {s t : State} (h : hostCycle c s = .next t) :
    (busOp c = .idle ∧ t = { s with dBus := none })
    ∨ (busOp c = .writeDr ∧ drRefusal c .hostWrites s = none ∧ t = hostWriteDr c.data s)
    ∨ (busOp c = .readDr ∧ drRefusal c .hostReads s = none ∧ t = hostReadDr s)
    ∨ (busOp c = .readSr ∧ t = hostReadSr s) := by
  unfold hostCycle drTransfer at h
  split at h
  · next hb => cases h; exact .inl ⟨hb, rfl⟩
  · next hb => split at h
               · cases h
               · next hr => cases h; exact .inr (.inl ⟨hb, hr, rfl⟩)
  · next hb => split at h
               · cases h
               · next hr => cases h; exact .inr (.inr (.inl ⟨hb, hr, rfl⟩))
  · next hb => cases h; exact .inr (.inr (.inr ⟨hb, rfl⟩))
  · cases h

/-- What a transferred byte does to the state: RQM, DRS and DRQ by the mode, and the model's note of the direction. -/
theorem State.byteDone_cases (s : State) (d : XferDir) :
    (s.drc = true ∧ s.byteDone d = s.finishTransfer)
    ∨ (s.drc = false ∧ s.drs = true ∧ s.byteDone d = s.secondByteDone)
    ∨ (s.drc = false ∧ s.drs = false ∧ s.byteDone d = s.firstByteDone d) := by
  unfold State.byteDone
  cases s.drc <;> cases s.drs <;> simp

/-- A rising SCK edge answers a next state: the held last output bit is let go, and one input bit is shifted in unless the
input is disabled. -/
theorem sckRise_next {sien si : Bool} {s t : State} (h : sckRise sien si s = .next t) :
    (sien = true ∧ t = s.releasePin) ∨ (sien = false ∧ s.siSpoilt = false ∧ t = siBit si s.releasePin) := by
  unfold sckRise at h
  split at h
  · next hs => cases h; exact .inl ⟨hs, rfl⟩
  · next hs => split at h
               · cases h
               · next hp => cases h; exact .inr ⟨by simpa using hs, by simpa using hp, rfl⟩

/-- `so_load` answers a next state only with a waiting word and a free shift register. -/
theorem soLoad_next {s t : State} (h : soLoad s = .next t) :
    s.soack = true ∧ s.sosrBusy = false
      ∧ t = { s with sosr := s.so, sosrBusy := true, socnt := 0, soack := false, sorq := true } := by
  unfold soLoad at h
  split at h
  · next hs => cases h; simp_all
  · cases h

/-- A falling SCK edge answers a next state: one bit sent, or the pin at its idle level. -/
theorem sckFall_next {s t : State} (h : sckFall s = .next t) :
    (s.sorq = true ∧ s.soenLevel = false ∧ s.soSpoilt = false ∧ t = soBit s)
    ∨ ((s.sorq = false ∨ s.soenLevel = true) ∧ t = { s with soPin := true, soLastBit := false }) := by
  unfold sckFall at h
  split at h
  · next hs => split at h
               · cases h
               · next hp => cases h; simp_all
  · next hs =>
    cases h
    refine .inr ⟨?_, rfl⟩
    cases hq : s.sorq <;> cases hn : s.soenLevel <;> simp_all

/-- What the SO pin can do at a rising SCK edge, whatever the input port does. -/
theorem sckRise_pin {sien si : Bool} {s t : State} (h : sckRise sien si s = .next t) :
    t.soPin = (s.soPin || s.soLastBit) ∧ t.soLastBit = false ∧ t.sorq = s.sorq ∧ t.soenLevel = s.soenLevel := by
  rcases sckRise_next h with ⟨-, rfl⟩ | ⟨-, -, rfl⟩
  · simp
  · unfold siBit State.latchSi
    split <;> simp

/-- What the SO pin can do at a falling SCK edge: a bit of the shift register, the last of its word or not, or idle. -/
theorem sckFall_pin {s t : State} (h : sckFall s = .next t) :
    t.soenLevel = s.soenLevel
      ∧ ((s.soenLevel = false ∧ t.soPin = s.sosr.getLsbD s.socnt ∧ t.soLastBit = !t.sorq)
        ∨ (t.soPin = true ∧ t.soLastBit = false ∧ t.sorq = s.sorq)) := by
  rcases sckFall_next h with ⟨hq, hn, -, rfl⟩ | ⟨-, rfl⟩
  · by_cases hl : s.socnt + 1 < serialLength s.soc <;> cases ha : s.soack <;> simp [soBit, State.endOfWord, *]
  · simp

/-! ### The step -/

/-- The core's step answers a next state: the interrupt entry, or the decoded instruction's. -/
theorem coreStep_next {s t : State} (h : coreStep s = .next t) :
    (s.intPending = true ∧ t = s.interruptEntry)
    ∨ (s.intPending = false ∧ ∃ i, decode s.fetch = .instr i ∧ exec i s = .next t) := by
  unfold coreStep runInstruction at h
  split at h
  · next hp => cases h; exact .inl ⟨hp, rfl⟩
  · next hp => split at h
               · next i hi => exact .inr ⟨by simpa using hp, i, hi, h⟩
               · cases h

/-- A step is the first listed turn's, the core's when none is listed. -/
theorem step_cases (s : State) :
    (s.turns = [] ∧ step s = coreStep s)
    ∨ ∃ turn rest, s.turns = turn :: rest ∧ step s = takeTurn turn { s with turns := rest } := by
  unfold step
  split
  · next h => exact .inl ⟨h, rfl⟩
  · next turn rest h => exact .inr ⟨turn, rest, h, rfl⟩

end Sys2Proof.Machine
end

