-- ==== Sys2Proof/Tests/Slice0.lean ====
section
/-! SUPPORT. Small tests: words of the spec decode to their statements, one step of each instruction on a small state,
the agents' steps, and for every statement with hypotheses a state and operands that meet them. The expected values are
those of `95_test_vectors.md` (V1 to V13, T1 to T6) unless a comment says otherwise. -/

namespace Sys2Proof.Tests

open Sys2Proof.Machine Sys2Proof.Claims

/-! ### Helpers -/

/-- The next state of an outcome, if it has one. -/
def nextOf (o : Host.Outcome State Fault Refusal) : Option State :=
  match o with
  | .next t => some t
  | .fault _ => none
  | .refused _ => none

/-- The fault of an outcome, if it is one. -/
def faultOf (o : Host.Outcome State Fault Refusal) : Option Fault :=
  match o with
  | .next _ => none
  | .fault e => some e
  | .refused _ => none

/-- The refusal of an outcome, if it is one. -/
def refusalOf (o : Host.Outcome State Fault Refusal) : Option Refusal :=
  match o with
  | .next _ => none
  | .fault _ => none
  | .refused r => some r

/-- One step with the word at PC, seen through an observation. -/
def after {α : Type} (w : InstrWord) (s : State) (see : State → α) : Option α :=
  (nextOf (step { s with irom := Memory.write [] s.pc.toNat w })).map see

/-- One outside turn, seen through an observation. -/
def turned {α : Type} (t : Turn) (s : State) (see : State → α) : Option α :=
  (nextOf (step { s with turns := [t] })).map see

/-- Fields with every part left out. -/
def plain : OpFields := ⟨.ram, .accA, .dpnop, 0#3, .rpnop, .non, .non⟩

/-- Six flags in the order of the spec's tables: S1 S0 C Z OV1 OV0. -/
def flg (s1 s0 c z ov1 ov0 : Bool) : Flags := ⟨s1, s0, c, z, ov1, ov0⟩

/-- The five flags that a logical function defines: S0 C Z OV1 OV0. -/
def five (f : Flags) : List Bool := [f.s0, f.c, f.z, f.ov1, f.ov0]

/-! ### Words that are not well-formed, one for each check (R137, R138) -/

theorem test_wellformed_refuses_undefined_branch : wellFormedWord 0x400000#23 = false := by decide
theorem test_wellformed_refuses_low_bits_of_jp : wellFormedWord 0x501231#23 = false := by decide
theorem test_wellformed_refuses_condition_in_jmp : wellFormedWord 0x53F230#23 = false := by decide
theorem test_wellformed_refuses_unused_bit_of_ldi : wellFormedWord 0x624691#23 = false := by decide
theorem test_wellformed_takes_good_words :
    wellFormedWord 0x501230#23 = true ∧ wellFormedWord 0x624681#23 = true ∧ wellFormedWord 0x48E100#23 = true
      ∧ wellFormedWord 0x3293FB#23 = true := by decide

/-! ### Decoding: every constructor, from a word written out by the spec -/

/-- `OP fn ACCA,RAM ;` is ALU shifted left by 15 (V5). -/
theorem test_decode_op_words :
    decode 0x000000#23 = .instr (.opNop plain)
    ∧ decode 0x008000#23 = .instr (.opOr plain)
    ∧ decode 0x010000#23 = .instr (.opAnd plain)
    ∧ decode 0x018000#23 = .instr (.opXor plain)
    ∧ decode 0x020000#23 = .instr (.opSub plain)
    ∧ decode 0x028000#23 = .instr (.opAdd plain)
    ∧ decode 0x030000#23 = .instr (.opSbb plain)
    ∧ decode 0x038000#23 = .instr (.opAdc plain)
    ∧ decode 0x040000#23 = .instr (.opDec plain)
    ∧ decode 0x048000#23 = .instr (.opInc plain)
    ∧ decode 0x050000#23 = .instr (.opCmp plain)
    ∧ decode 0x058000#23 = .instr (.opShr1 plain)
    ∧ decode 0x060000#23 = .instr (.opShl1 plain)
    ∧ decode 0x068000#23 = .instr (.opShl2 plain)
    ∧ decode 0x070000#23 = .instr (.opShl4 plain)
    ∧ decode 0x078000#23 = .instr (.opXchg plain) := by decide

/-- The same words with D21 = 1 are the RT forms (R121, R162). -/
theorem test_decode_rt_words :
    decode 0x200000#23 = .instr (.rtNop plain)
    ∧ decode 0x208000#23 = .instr (.rtOr plain)
    ∧ decode 0x210000#23 = .instr (.rtAnd plain)
    ∧ decode 0x218000#23 = .instr (.rtXor plain)
    ∧ decode 0x220000#23 = .instr (.rtSub plain)
    ∧ decode 0x228000#23 = .instr (.rtAdd plain)
    ∧ decode 0x230000#23 = .instr (.rtSbb plain)
    ∧ decode 0x238000#23 = .instr (.rtAdc plain)
    ∧ decode 0x240000#23 = .instr (.rtDec plain)
    ∧ decode 0x248000#23 = .instr (.rtInc plain)
    ∧ decode 0x250000#23 = .instr (.rtCmp plain)
    ∧ decode 0x258000#23 = .instr (.rtShr1 plain)
    ∧ decode 0x260000#23 = .instr (.rtShl1 plain)
    ∧ decode 0x268000#23 = .instr (.rtShl2 plain)
    ∧ decode 0x270000#23 = .instr (.rtShl4 plain)
    ∧ decode 0x278000#23 = .instr (.rtXchg plain) := by decide

/-- JMP and CALL, ignored bits set too (V7). -/
theorem test_decode_jump_words :
    decode 0x501230#23 = .instr (.jmp 0x123#9)
    ∧ decode 0x501FF0#23 = .instr (.jmp 0x1FF#9)
    ∧ decode 0x540400#23 = .instr (.call 0x040#9)
    ∧ decode 0x541FF0#23 = .instr (.call 0x1FF#9)
    ∧ decode 0x50123F#23 = .instr (.jmp 0x123#9)
    ∧ decode 0x53F230#23 = .instr (.jmp 0x123#9) := by decide

/-- The 32 conditional jumps to 010H (V7). -/
theorem test_decode_conditional_words :
    decode 0x480100#23 = .instr (.jnca 0x010#9)
    ∧ decode 0x482100#23 = .instr (.jca 0x010#9)
    ∧ decode 0x484100#23 = .instr (.jncb 0x010#9)
    ∧ decode 0x486100#23 = .instr (.jcb 0x010#9)
    ∧ decode 0x488100#23 = .instr (.jnza 0x010#9)
    ∧ decode 0x48A100#23 = .instr (.jza 0x010#9)
    ∧ decode 0x48C100#23 = .instr (.jnzb 0x010#9)
    ∧ decode 0x48E100#23 = .instr (.jzb 0x010#9)
    ∧ decode 0x490100#23 = .instr (.jnova0 0x010#9)
    ∧ decode 0x492100#23 = .instr (.jova0 0x010#9)
    ∧ decode 0x494100#23 = .instr (.jnovb0 0x010#9)
    ∧ decode 0x496100#23 = .instr (.jovb0 0x010#9)
    ∧ decode 0x498100#23 = .instr (.jnova1 0x010#9)
    ∧ decode 0x49A100#23 = .instr (.jova1 0x010#9)
    ∧ decode 0x49C100#23 = .instr (.jnovb1 0x010#9)
    ∧ decode 0x49E100#23 = .instr (.jovb1 0x010#9)
    ∧ decode 0x4A0100#23 = .instr (.jnsa0 0x010#9)
    ∧ decode 0x4A2100#23 = .instr (.jsa0 0x010#9)
    ∧ decode 0x4A4100#23 = .instr (.jnsb0 0x010#9)
    ∧ decode 0x4A6100#23 = .instr (.jsb0 0x010#9)
    ∧ decode 0x4A8100#23 = .instr (.jnsa1 0x010#9)
    ∧ decode 0x4AA100#23 = .instr (.jsa1 0x010#9)
    ∧ decode 0x4AC100#23 = .instr (.jnsb1 0x010#9)
    ∧ decode 0x4AE100#23 = .instr (.jsb1 0x010#9)
    ∧ decode 0x4B0100#23 = .instr (.jdpl0 0x010#9)
    ∧ decode 0x4B2100#23 = .instr (.jdplf 0x010#9)
    ∧ decode 0x4B4100#23 = .instr (.jnsiak 0x010#9)
    ∧ decode 0x4B6100#23 = .instr (.jsiak 0x010#9)
    ∧ decode 0x4B8100#23 = .instr (.jnsoak 0x010#9)
    ∧ decode 0x4BA100#23 = .instr (.jsoak 0x010#9)
    ∧ decode 0x4BC100#23 = .instr (.jnrqm 0x010#9)
    ∧ decode 0x4BE100#23 = .instr (.jrqm 0x010#9) := by decide

/-- The five undefined BRCH codes (V7). -/
theorem test_decode_undefined_branch_words :
    decode 0x400000#23 = .rejected .undefinedBranch
    ∧ decode 0x440000#23 = .rejected .undefinedBranch
    ∧ decode 0x4C0000#23 = .rejected .undefinedBranch
    ∧ decode 0x580000#23 = .rejected .undefinedBranch
    ∧ decode 0x5C0000#23 = .rejected .undefinedBranch := by decide

/-- LDI to each destination (V8), and once with the ignored bit set. -/
theorem test_decode_ldi_words :
    decode 0x600000#23 = .instr (.ldi .non 0x0000#16)
    ∧ decode 0x624681#23 = .instr (.ldi .a 0x1234#16)
    ∧ decode 0x600FE2#23 = .instr (.ldi .b 0x007F#16)
    ∧ decode 0x601003#23 = .instr (.ldi .tr 0x0080#16)
    ∧ decode 0x7FFFE4#23 = .instr (.ldi .dp 0xFFFF#16)
    ∧ decode 0x603FE5#23 = .instr (.ldi .rp 0x01FF#16)
    ∧ decode 0x600006#23 = .instr (.ldi .dr 0x0000#16)
    ∧ decode 0x640027#23 = .instr (.ldi .sr 0x2001#16)
    ∧ decode 0x600968#23 = .instr (.ldi .sol 0x004B#16)
    ∧ decode 0x700009#23 = .instr (.ldi .som 0x8000#16)
    ∧ decode 0x68000A#23 = .instr (.ldi .k 0x4000#16)
    ∧ decode 0x62000B#23 = .instr (.ldi .klr 0x1000#16)
    ∧ decode 0x62000C#23 = .instr (.ldi .klm 0x1000#16)
    ∧ decode 0x64000D#23 = .instr (.ldi .l 0x2000#16)
    ∧ decode 0x62468E#23 = .instr (.ldi .non2 0x1234#16)
    ∧ decode 0x7579AF#23 = .instr (.ldi .mem 0xABCD#16)
    ∧ decode 0x624691#23 = .instr (.ldi .a 0x1234#16) := by decide

/-- `OP MOV @A,src ;` (V1). -/
theorem test_decode_sources :
    decode 0x000001#23 = .instr (.opNop ⟨.ram, .accA, .dpnop, 0#3, .rpnop, .non, .a⟩)
    ∧ decode 0x000011#23 = .instr (.opNop ⟨.ram, .accA, .dpnop, 0#3, .rpnop, .a, .a⟩)
    ∧ decode 0x000021#23 = .instr (.opNop ⟨.ram, .accA, .dpnop, 0#3, .rpnop, .b, .a⟩)
    ∧ decode 0x000031#23 = .instr (.opNop ⟨.ram, .accA, .dpnop, 0#3, .rpnop, .tr, .a⟩)
    ∧ decode 0x000041#23 = .instr (.opNop ⟨.ram, .accA, .dpnop, 0#3, .rpnop, .dp, .a⟩)
    ∧ decode 0x000051#23 = .instr (.opNop ⟨.ram, .accA, .dpnop, 0#3, .rpnop, .rp, .a⟩)
    ∧ decode 0x000061#23 = .instr (.opNop ⟨.ram, .accA, .dpnop, 0#3, .rpnop, .ro, .a⟩)
    ∧ decode 0x000071#23 = .instr (.opNop ⟨.ram, .accA, .dpnop, 0#3, .rpnop, .sgn, .a⟩)
    ∧ decode 0x000081#23 = .instr (.opNop ⟨.ram, .accA, .dpnop, 0#3, .rpnop, .dr, .a⟩)
    ∧ decode 0x000091#23 = .instr (.opNop ⟨.ram, .accA, .dpnop, 0#3, .rpnop, .drnf, .a⟩)
    ∧ decode 0x0000A1#23 = .instr (.opNop ⟨.ram, .accA, .dpnop, 0#3, .rpnop, .sr, .a⟩)
    ∧ decode 0x0000B1#23 = .instr (.opNop ⟨.ram, .accA, .dpnop, 0#3, .rpnop, .sim, .a⟩)
    ∧ decode 0x0000C1#23 = .instr (.opNop ⟨.ram, .accA, .dpnop, 0#3, .rpnop, .sil, .a⟩)
    ∧ decode 0x0000D1#23 = .instr (.opNop ⟨.ram, .accA, .dpnop, 0#3, .rpnop, .k, .a⟩)
    ∧ decode 0x0000E1#23 = .instr (.opNop ⟨.ram, .accA, .dpnop, 0#3, .rpnop, .l, .a⟩)
    ∧ decode 0x0000F1#23 = .instr (.opNop ⟨.ram, .accA, .dpnop, 0#3, .rpnop, .mem, .a⟩) := by decide

/-- `OP MOV @dst,A ;` (V2). -/
theorem test_decode_destinations :
    decode 0x000010#23 = .instr (.opNop ⟨.ram, .accA, .dpnop, 0#3, .rpnop, .a, .non⟩)
    ∧ decode 0x000011#23 = .instr (.opNop ⟨.ram, .accA, .dpnop, 0#3, .rpnop, .a, .a⟩)
    ∧ decode 0x000012#23 = .instr (.opNop ⟨.ram, .accA, .dpnop, 0#3, .rpnop, .a, .b⟩)
    ∧ decode 0x000013#23 = .instr (.opNop ⟨.ram, .accA, .dpnop, 0#3, .rpnop, .a, .tr⟩)
    ∧ decode 0x000014#23 = .instr (.opNop ⟨.ram, .accA, .dpnop, 0#3, .rpnop, .a, .dp⟩)
    ∧ decode 0x000015#23 = .instr (.opNop ⟨.ram, .accA, .dpnop, 0#3, .rpnop, .a, .rp⟩)
    ∧ decode 0x000016#23 = .instr (.opNop ⟨.ram, .accA, .dpnop, 0#3, .rpnop, .a, .dr⟩)
    ∧ decode 0x000017#23 = .instr (.opNop ⟨.ram, .accA, .dpnop, 0#3, .rpnop, .a, .sr⟩)
    ∧ decode 0x000018#23 = .instr (.opNop ⟨.ram, .accA, .dpnop, 0#3, .rpnop, .a, .sol⟩)
    ∧ decode 0x000019#23 = .instr (.opNop ⟨.ram, .accA, .dpnop, 0#3, .rpnop, .a, .som⟩)
    ∧ decode 0x00001A#23 = .instr (.opNop ⟨.ram, .accA, .dpnop, 0#3, .rpnop, .a, .k⟩)
    ∧ decode 0x00001B#23 = .instr (.opNop ⟨.ram, .accA, .dpnop, 0#3, .rpnop, .a, .klr⟩)
    ∧ decode 0x00001C#23 = .instr (.opNop ⟨.ram, .accA, .dpnop, 0#3, .rpnop, .a, .klm⟩)
    ∧ decode 0x00001D#23 = .instr (.opNop ⟨.ram, .accA, .dpnop, 0#3, .rpnop, .a, .l⟩)
    ∧ decode 0x00001E#23 = .instr (.opNop ⟨.ram, .accA, .dpnop, 0#3, .rpnop, .a, .non2⟩)
    ∧ decode 0x00001F#23 = .instr (.opNop ⟨.ram, .accA, .dpnop, 0#3, .rpnop, .a, .mem⟩) := by decide

/-- Words that use every field: T2, V4, V10, V3. -/
theorem test_decode_field_words :
    decode 0x3293FB#23 = .instr (.rtAdd ⟨.m, .accA, .dpinc, 1#3, .rpdec, .mem, .klr⟩)
    ∧ decode 0x09811B#23 = .instr (.opXor ⟨.idb, .accA, .dpnop, 0#3, .rpdec, .a, .klr⟩)
    ∧ decode 0x1A8000#23 = .instr (.opAdd ⟨.n, .accA, .dpnop, 0#3, .rpnop, .non, .non⟩)
    ∧ decode 0x04508F#23 = .instr (.opDec ⟨.ram, .accB, .dpinc, 0#3, .rpnop, .dr, .mem⟩)
    ∧ decode 0x001C00#23 = .instr (.opNop ⟨.ram, .accA, .dpinc, 6#3, .rpnop, .non, .non⟩)
    ∧ decode 0x002600#23 = .instr (.opNop ⟨.ram, .accA, .dpdec, 3#3, .rpnop, .non, .non⟩)
    ∧ decode 0x003E00#23 = .instr (.opNop ⟨.ram, .accA, .dpclr, 7#3, .rpnop, .non, .non⟩) := by decide

/-- Encoding writes the same words, ignored bits zero (R138). -/
theorem test_encode_words :
    encode (.rtAdd ⟨.m, .accA, .dpinc, 1#3, .rpdec, .mem, .klr⟩) = 0x3293FB#23
    ∧ encode (.call 0x040#9) = 0x540400#23 ∧ encode (.jzb 0x010#9) = 0x48E100#23
    ∧ encode (.ldi .mem 0xABCD#16) = 0x7579AF#23 := by decide

/-- A row of the opcode table is read with the bits above it zero; a number beyond 23 bits is no word. -/
theorem test_decode_table_word :
    decodeTableWord 23 0x501230 = some (.jmp 0x123#9) ∧ decodeTableWord 24 0x501230 = some (.jmp 0x123#9)
    ∧ decodeTableWord 24 0x800000 = none := by decide

/-! ### Sources and destinations (V1, V2) -/

/-- The start state of V1, with SIC = 0 (SR = E283H) so that SIL is defined. -/
def sourceStart : State :=
  { State.reset with
    accA := 0x1111#16, accB := 0x2222#16, tr := 0x3333#16, dp := 0x55#7, rp := 0x1A5#9, drom := [(0x1A5, 0x1FFF#13)],
    flagA := flg true false false false false false, dr := 0x4444#16, sr := 0xE283#16, si := 0xC001#16, siack := true,
    k := 0x5555#16, l := 0x6666#16, ram := [(0x55, 0x7777#16)] }

/-- What each source puts on the bus (V1). -/
theorem test_sources :
    after 0x000011#23 sourceStart (·.accA) = some 0x1111#16
    ∧ after 0x000021#23 sourceStart (·.accA) = some 0x2222#16
    ∧ after 0x000031#23 sourceStart (·.accA) = some 0x3333#16
    ∧ after 0x000041#23 sourceStart (·.accA) = some 0x0055#16
    ∧ after 0x000051#23 sourceStart (·.accA) = some 0x01A5#16
    ∧ after 0x000061#23 sourceStart (·.accA) = some 0xFFF8#16
    ∧ after 0x000071#23 sourceStart (·.accA) = some 0x7FFF#16
    ∧ after 0x000081#23 sourceStart (·.accA) = some 0x4444#16
    ∧ after 0x000091#23 sourceStart (·.accA) = some 0x4444#16
    ∧ after 0x0000A1#23 sourceStart (·.accA) = some 0xE283#16
    ∧ after 0x0000B1#23 sourceStart (·.accA) = some 0xC001#16
    ∧ after 0x0000C1#23 sourceStart (·.accA) = some 0x8003#16
    ∧ after 0x0000D1#23 sourceStart (·.accA) = some 0x5555#16
    ∧ after 0x0000E1#23 sourceStart (·.accA) = some 0x6666#16
    ∧ after 0x0000F1#23 sourceStart (·.accA) = some 0x7777#16 := by decide

/-- A serial read resets SIACK, no other source does (V1). -/
theorem test_source_side_effects :
    after 0x0000B1#23 sourceStart (·.siack) = some false ∧ after 0x0000C1#23 sourceStart (·.siack) = some false
    ∧ after 0x0000D1#23 sourceStart (·.siack) = some true
    ∧ after 0x000081#23 { sourceStart with sr := 0x0000#16 } (fun t => (t.rqm, t.drq)) = some (true, false)
    ∧ after 0x000081#23 { sourceStart with sr := 0x0800#16 } (fun t => (t.rqm, t.drq)) = some (false, true)
    ∧ after 0x000091#23 { sourceStart with sr := 0x0800#16 } (fun t => (t.rqm, t.drq)) = some (false, false) := by
  decide

/-- The start state of V2. -/
def destinationStart : State :=
  { State.reset with
    accA := 0xFFFF#16, dp := 0x23#7, rp := 0x0F0#9, drom := [(0x0F0, 0x0ABC#13)],
    ram := [(0x23, 0x1234#16), (0x63, 0x5678#16)], sr := 0x9000#16 }

/-- What each destination latches (V2). -/
theorem test_destinations :
    after 0x000012#23 destinationStart (·.accB) = some 0xFFFF#16
    ∧ after 0x000013#23 destinationStart (·.tr) = some 0xFFFF#16
    ∧ after 0x000014#23 destinationStart (·.dp) = some 0x7F#7
    ∧ after 0x000015#23 destinationStart (·.rp) = some 0x1FF#9
    ∧ after 0x000016#23 destinationStart (fun t => (t.dr, t.rqm)) = some (0xFFFF#16, true)
    ∧ after 0x000017#23 destinationStart (·.sr) = some 0xFF83#16
    ∧ after 0x000018#23 destinationStart (fun t => (t.so, t.soack)) = some (0xFFFF#16, true)
    ∧ after 0x000019#23 { destinationStart with accA := 0xC001#16 } (·.so) = some 0x8003#16
    ∧ after 0x00001A#23 destinationStart (fun t => (t.k, t.l)) = some (0xFFFF#16, 0x0000#16)
    ∧ after 0x00001B#23 destinationStart (fun t => (t.k, t.l)) = some (0xFFFF#16, 0x55E0#16)
    ∧ after 0x00001C#23 destinationStart (fun t => (t.k, t.l)) = some (0x5678#16, 0xFFFF#16)
    ∧ after 0x00001D#23 destinationStart (fun t => (t.k, t.l)) = some (0x0000#16, 0xFFFF#16)
    ∧ after 0x00001F#23 destinationStart (·.ram) = some [(0x23, 0xFFFF#16), (0x63, 0x5678#16)] := by decide

/-- @NON, both codes: nothing but PC and the draw index changes (V2). -/
theorem test_no_destination :
    after 0x000010#23 destinationStart id
      = some { destinationStart with irom := [(0, 0x000010#23)], pc := 1#9, draws := 1 }
    ∧ after 0x00001E#23 destinationStart id
      = some { destinationStart with irom := [(0, 0x00001E#23)], pc := 1#9, draws := 1 } := by decide

/-! ### Pointers (V3) -/

/-- A state with the two pointers. -/
def pointers (dp : RamAddr) (rp : RomAddr) : State := { State.reset with dp := dp, rp := rp }

/-- DPL and DPH-M (V3). -/
theorem test_data_pointer_fields :
    after 0x001000#23 (pointers 0x0E#7 0#9) (·.dp) = some 0x0F#7
    ∧ after 0x001000#23 (pointers 0x3F#7 0#9) (·.dp) = some 0x30#7
    ∧ after 0x002000#23 (pointers 0x30#7 0#9) (·.dp) = some 0x3F#7
    ∧ after 0x003000#23 (pointers 0x7A#7 0#9) (·.dp) = some 0x70#7
    ∧ after 0x000200#23 (pointers 0x10#7 0#9) (·.dp) = some 0x00#7
    ∧ after 0x000400#23 (pointers 0x15#7 0#9) (·.dp) = some 0x35#7
    ∧ after 0x000600#23 (pointers 0x7F#7 0#9) (·.dp) = some 0x4F#7
    ∧ after 0x000E00#23 (pointers 0x55#7 0#9) (·.dp) = some 0x25#7
    ∧ after 0x001C00#23 (pointers 0x6F#7 0#9) (·.dp) = some 0x00#7
    ∧ after 0x002600#23 (pointers 0x10#7 0#9) (·.dp) = some 0x2F#7
    ∧ after 0x003E00#23 (pointers 0x5A#7 0#9) (·.dp) = some 0x20#7 := by decide

/-- RPDEC, the wrap, and the moves that win over the pointer fields (V2, V3). -/
theorem test_rom_pointer_and_moves :
    after 0x000100#23 (pointers 0#7 0x1FF#9) (·.rp) = some 0x1FE#9
    ∧ after 0x000100#23 (pointers 0#7 0#9) (·.rp) = some 0x1FF#9
    ∧ after 0x001E14#23 { State.reset with accA := 0x0155#16 } (·.dp) = some 0x55#7
    ∧ after 0x000115#23 { State.reset with accA := 0xFE00#16 } (·.rp) = some 0x000#9
    ∧ after 0x00101F#23 { pointers 0x0F#7 0#9 with accA := 0xABCD#16 } (fun t => (t.ram, t.dp))
      = some ([(0x0F, 0xABCD#16)], 0x00#7) := by decide

/-! ### The ALU (V5), one vector or two for each function -/

/-- A state with ACCA, the RAM word at DP = 0, CB and FLAGA. -/
def aluStart (q p : Word) (cOther : Bool) (fl : Flags) : State :=
  { State.reset with
    accA := q, ram := if p = 0#16 then [] else [(0, p)], flagA := fl,
    flagB := flg false false cOther false false false }

theorem test_alu_or :
    after 0x008000#23 (aluStart 0x8000#16 0x0001#16 false (flg true false true false true true)) (fun t => (t.accA, five t.flagA))
      = some (0x8001#16, [true, false, false, false, false])
    ∧ after 0x008000#23 (aluStart 0x0000#16 0x0000#16 false (flg false false false false false false)) (fun t => (t.accA, five t.flagA))
      = some (0x0000#16, [false, false, true, false, false]) := by
  decide

theorem test_alu_and :
    after 0x010000#23 (aluStart 0xAAAA#16 0x5555#16 false (flg false false false false false false)) (fun t => (t.accA, five t.flagA))
      = some (0x0000#16, [false, false, true, false, false])
    ∧ after 0x010000#23 (aluStart 0xFFFF#16 0x8000#16 false (flg false false false false false false)) (fun t => (t.accA, five t.flagA))
      = some (0x8000#16, [true, false, false, false, false]) := by
  decide

theorem test_alu_xor :
    after 0x018000#23 (aluStart 0xFFFF#16 0x00FF#16 false (flg false false false false false false)) (fun t => (t.accA, five t.flagA))
      = some (0xFF00#16, [true, false, false, false, false])
    ∧ after 0x018000#23 (aluStart 0x1234#16 0x1234#16 false (flg false false false false false false)) (fun t => (t.accA, five t.flagA))
      = some (0x0000#16, [false, false, true, false, false]) := by
  decide

theorem test_alu_sub :
    after 0x020000#23 (aluStart 0x0003#16 0x0005#16 false (flg false false false false false false)) (fun t => (t.accA, t.flagA))
      = some (0xFFFE#16, flg true true true false false false)
    ∧ after 0x020000#23 (aluStart 0x7FFF#16 0xFFFF#16 false (flg false false false false false false)) (fun t => (t.accA, t.flagA))
      = some (0x8000#16, flg true true true false true true) := by
  decide

theorem test_alu_add :
    after 0x028000#23 (aluStart 0x8000#16 0x8000#16 false (flg false false false false false false)) (fun t => (t.accA, t.flagA))
      = some (0x0000#16, flg false false true true true true)
    ∧ after 0x028000#23 (aluStart 0xAAAA#16 0xAAAB#16 false (flg true true false false true true)) (fun t => (t.accA, t.flagA))
      = some (0x5555#16, flg true false true false false true) := by
  decide

theorem test_alu_sbb :
    after 0x030000#23 (aluStart 0x8000#16 0x0000#16 true (flg false false false false false false)) (fun t => (t.accA, t.flagA))
      = some (0x7FFF#16, flg false false false false true true)
    ∧ after 0x030000#23 (aluStart 0x0000#16 0xFFFF#16 true (flg false false false false false false)) (fun t => (t.accA, t.flagA))
      = some (0x0000#16, flg false false true true false false) := by
  decide

theorem test_alu_adc :
    after 0x038000#23 (aluStart 0xFFFF#16 0xFFFF#16 true (flg false false false false false false)) (fun t => (t.accA, t.flagA))
      = some (0xFFFF#16, flg true true true false false false)
    ∧ after 0x038000#23 (aluStart 0x7FFF#16 0x0000#16 true (flg false false false false false false)) (fun t => (t.accA, t.flagA))
      = some (0x8000#16, flg true true false false true true) := by
  decide

theorem test_alu_dec :
    after 0x040000#23 (aluStart 0x0000#16 0x0000#16 false (flg false false false false false false)) (fun t => (t.accA, t.flagA))
      = some (0xFFFF#16, flg true true true false false false)
    ∧ after 0x040000#23 (aluStart 0x1234#16 0x0000#16 false (flg false false true false false false)) (fun t => (t.accA, t.flagA))
      = some (0x1233#16, flg false false false false false false) := by
  decide

theorem test_alu_inc :
    after 0x048000#23 (aluStart 0xFFFF#16 0x0000#16 false (flg false false false false false false)) (fun t => (t.accA, t.flagA))
      = some (0x0000#16, flg false false true true false false)
    ∧ after 0x048000#23 (aluStart 0x8000#16 0x0000#16 false (flg true true false false true false)) (fun t => (t.accA, t.flagA))
      = some (0x8001#16, flg true true false false true false) := by
  decide

theorem test_alu_cmp :
    after 0x050000#23 (aluStart 0x1234#16 0x0000#16 false (flg false false true false true true)) (fun t => (t.accA, five t.flagA))
      = some (0xEDCB#16, [true, false, false, false, false])
    ∧ after 0x050000#23 (aluStart 0xFFFF#16 0x0000#16 false (flg false false false false false false)) (fun t => (t.accA, five t.flagA))
      = some (0x0000#16, [false, false, true, false, false]) := by
  decide

theorem test_alu_shr1 :
    after 0x058000#23 (aluStart 0x8001#16 0x0000#16 false (flg false false false false false false)) (fun t => (t.accA, five t.flagA))
      = some (0xC000#16, [true, true, false, false, false])
    ∧ after 0x058000#23 (aluStart 0x0001#16 0x0000#16 false (flg false false false false false false)) (fun t => (t.accA, five t.flagA))
      = some (0x0000#16, [false, true, true, false, false]) := by
  decide

theorem test_alu_shl1 :
    after 0x060000#23 (aluStart 0x8000#16 0x0000#16 false (flg false false false false false false)) (fun t => (t.accA, five t.flagA))
      = some (0x0000#16, [false, true, true, false, false])
    ∧ after 0x060000#23 (aluStart 0x4000#16 0x0000#16 true (flg false false false false false false)) (fun t => (t.accA, five t.flagA))
      = some (0x8001#16, [true, false, false, false, false]) := by
  decide

theorem test_alu_shl2 :
    after 0x068000#23 (aluStart 0xC000#16 0x0000#16 false (flg false false false false false false)) (fun t => (t.accA, five t.flagA))
      = some (0x0003#16, [false, false, false, false, false])
    ∧ after 0x068000#23 (aluStart 0x3FFF#16 0x0000#16 false (flg false false false false false false)) (fun t => (t.accA, five t.flagA))
      = some (0xFFFF#16, [true, false, false, false, false]) := by
  decide

theorem test_alu_shl4 :
    after 0x070000#23 (aluStart 0xF000#16 0x0000#16 false (flg false false false false false false)) (fun t => (t.accA, five t.flagA))
      = some (0x000F#16, [false, false, false, false, false])
    ∧ after 0x070000#23 (aluStart 0x1234#16 0x0000#16 false (flg false false false false false false)) (fun t => (t.accA, five t.flagA))
      = some (0x234F#16, [false, false, false, false, false]) := by
  decide

theorem test_alu_xchg :
    after 0x078000#23 (aluStart 0x12AB#16 0x0000#16 false (flg false false false false false false)) (fun t => (t.accA, five t.flagA))
      = some (0xAB12#16, [true, false, false, false, false])
    ∧ after 0x078000#23 (aluStart 0x0000#16 0x0000#16 false (flg false false false false false false)) (fun t => (t.accA, five t.flagA))
      = some (0x0000#16, [false, false, true, false, false]) := by
  decide

/-- NOP changes nothing but PC (and the draw index) (V5). -/
theorem test_alu_nop :
    after 0x000000#23 (aluStart 0x1234#16 0#16 true (flg true false true true false true)) (fun t => (t.accA, t.flagA, t.pc))
      = some (0x1234#16, flg true false true true false true, 1#9) := by decide

/-- The B side: ASL = 1 works on ACCB and FLAGB with CA as the other carry (V5, R255). -/
theorem test_alu_other_accumulator :
    after 0x03C000#23 { State.reset with accB := 0xFFFF#16, flagA := flg false false true false false false }
      (fun t => (t.accB, t.flagB.c, t.accA, t.flagA.c)) = some (0x0000#16, true, 0x0000#16, true) := by decide

/-- The move to the ALU's own accumulator wins; a move to the other one does not disturb it (V4). -/
theorem test_move_and_alu :
    after 0x0A8021#23 { State.reset with accA := 1#16, accB := 2#16 } (fun t => (t.accA, t.flagA))
      = some (2#16, Flags.zero)
    ∧ after 0x048012#23 { State.reset with accA := 0x7FFF#16 } (fun t => (t.accA, t.accB, t.flagA))
      = some (0x8000#16, 0x7FFF#16, flg true true false false true true)
    ∧ after 0x02802F#23 { State.reset with accA := 1#16, accB := 0x10#16, ram := [(0, 0x100#16)] }
      (fun t => (t.accA, t.ram)) = some (0x101#16, [(0, 0x10#16)]) := by decide

/-- The products of V6 that show the sign rules, the one wrong product among them. -/
theorem test_multiplier :
    (fun s : State => (s.m, s.n)) { State.reset with k := 0x8000#16, l := 0x8000#16 } = (0x8000#16, 0x0000#16)
    ∧ (fun s : State => (s.m, s.n)) { State.reset with k := 0x7FFF#16, l := 0x8001#16 } = (0x8001#16, 0xFFFE#16)
    ∧ (fun s : State => (s.m, s.n)) { State.reset with k := 0x1234#16, l := 0x5678#16 } = (0x0C4C#16, 0x00C0#16)
    ∧ (fun s : State => (s.m, s.n)) { State.reset with k := 0xFFFF#16, l := 0x0001#16 } = (0xFFFF#16, 0xFFFE#16) := by
  decide

/-- The old product is used, the new K stands after (V6's latency vector). -/
theorem test_multiplier_latency :
    after 0x1280FA#23 { State.reset with k := 0x4000#16, l := 0x4000#16, ram := [(0, 0x2000#16)] }
      (fun t => (t.accA, t.k, t.m)) = some (0x2000#16, 0x2000#16, 0x1000#16) := by decide

/-! ### RT: each row once (V4, R162) -/

/-- A state with a return address, ACCA = 0001H and RAM[0] = 0002H. -/
def returnStart : State :=
  { State.reset with pc := 0x089#9, stk := [0x009#9, 0x123#9], accA := 1#16, ram := [(0, 2#16)] }

/-- Each RT row does its function on 0001H and 0002H (values by hand from R235 to R250) and returns. -/
theorem test_return_rows :
    after 0x200000#23 returnStart (fun t => (t.pc, t.stk, t.accA)) = some (0x009#9, [0x123#9], 0x0001#16)
    ∧ after 0x208000#23 returnStart (fun t => (t.pc, t.stk, t.accA)) = some (0x009#9, [0x123#9], 0x0003#16)
    ∧ after 0x210000#23 returnStart (fun t => (t.pc, t.stk, t.accA)) = some (0x009#9, [0x123#9], 0x0000#16)
    ∧ after 0x218000#23 returnStart (fun t => (t.pc, t.stk, t.accA)) = some (0x009#9, [0x123#9], 0x0003#16)
    ∧ after 0x220000#23 returnStart (fun t => (t.pc, t.stk, t.accA)) = some (0x009#9, [0x123#9], 0xFFFF#16)
    ∧ after 0x228000#23 returnStart (fun t => (t.pc, t.stk, t.accA)) = some (0x009#9, [0x123#9], 0x0003#16)
    ∧ after 0x230000#23 returnStart (fun t => (t.pc, t.stk, t.accA)) = some (0x009#9, [0x123#9], 0xFFFF#16)
    ∧ after 0x238000#23 returnStart (fun t => (t.pc, t.stk, t.accA)) = some (0x009#9, [0x123#9], 0x0003#16)
    ∧ after 0x240000#23 returnStart (fun t => (t.pc, t.stk, t.accA)) = some (0x009#9, [0x123#9], 0x0000#16)
    ∧ after 0x248000#23 returnStart (fun t => (t.pc, t.stk, t.accA)) = some (0x009#9, [0x123#9], 0x0002#16)
    ∧ after 0x250000#23 returnStart (fun t => (t.pc, t.stk, t.accA)) = some (0x009#9, [0x123#9], 0xFFFE#16)
    ∧ after 0x258000#23 returnStart (fun t => (t.pc, t.stk, t.accA)) = some (0x009#9, [0x123#9], 0x0000#16)
    ∧ after 0x260000#23 returnStart (fun t => (t.pc, t.stk, t.accA)) = some (0x009#9, [0x123#9], 0x0002#16)
    ∧ after 0x268000#23 returnStart (fun t => (t.pc, t.stk, t.accA)) = some (0x009#9, [0x123#9], 0x0007#16)
    ∧ after 0x270000#23 returnStart (fun t => (t.pc, t.stk, t.accA)) = some (0x009#9, [0x123#9], 0x001F#16)
    ∧ after 0x278000#23 returnStart (fun t => (t.pc, t.stk, t.accA)) = some (0x009#9, [0x123#9], 0x0100#16) := by
  and_intros <;> decide

/-- `OP MOV @MEM,A DPDEC RET ;` of R162, and the empty stack. -/
theorem test_return_example :
    after 0x20201F#23 { State.reset with stk := [0x04A#9], dp := 0x07#7, accA := 0x1234#16 }
      (fun t => (t.ram, t.dp, t.pc, t.stk)) = some ([(0x07, 0x1234#16)], 0x06#7, 0x04A#9, [])
    ∧ faultOf (step { State.reset with irom := [(0, 0x200000#23)] }) = some .stackUnderflow := by decide

/-! ### JP (V7) -/

/-- JMP, CALL at the top of the address space, a fifth nested CALL. -/
theorem test_jumps_and_calls :
    after 0x501230#23 State.reset (·.pc) = some 0x123#9
    ∧ after 0x540400#23 { State.reset with pc := 0x00A#9 } (fun t => (t.pc, t.stk)) = some (0x040#9, [0x00B#9])
    ∧ after 0x541FF0#23 { State.reset with pc := 0x1FF#9 } (fun t => (t.pc, t.stk)) = some (0x1FF#9, [0x000#9])
    ∧ after 0x540400#23 { State.reset with pc := 4#9, stk := [4#9, 3#9, 2#9, 1#9] } (·.stk)
      = some [5#9, 4#9, 3#9, 2#9]
    ∧ faultOf (step { State.reset with irom := [(0, 0x400000#23)] }) = some .undefinedBranch := by decide

/-- A state in which every tested item is 1: all flags, SIACK, SOACK, RQM; DP is given. -/
def allSet (dp : RamAddr) : State :=
  { State.reset with
    pc := 5#9, flagA := flg true true true true true true, flagB := flg true true true true true true, siack := true,
    soack := true, sr := 0x8000#16, dp := dp }

/-- One in which every tested item is 0. -/
def allClear (dp : RamAddr) : State := { State.reset with pc := 5#9, dp := dp }

/-- Each condition taken. -/
theorem test_conditional_jumps_taken :
    after 0x480100#23 (allClear 0#7) (·.pc) = some 0x010#9
    ∧ after 0x482100#23 (allSet 0#7) (·.pc) = some 0x010#9
    ∧ after 0x484100#23 (allClear 0#7) (·.pc) = some 0x010#9
    ∧ after 0x486100#23 (allSet 0#7) (·.pc) = some 0x010#9
    ∧ after 0x488100#23 (allClear 0#7) (·.pc) = some 0x010#9
    ∧ after 0x48A100#23 (allSet 0#7) (·.pc) = some 0x010#9
    ∧ after 0x48C100#23 (allClear 0#7) (·.pc) = some 0x010#9
    ∧ after 0x48E100#23 (allSet 0#7) (·.pc) = some 0x010#9
    ∧ after 0x490100#23 (allClear 0#7) (·.pc) = some 0x010#9
    ∧ after 0x492100#23 (allSet 0#7) (·.pc) = some 0x010#9
    ∧ after 0x494100#23 (allClear 0#7) (·.pc) = some 0x010#9
    ∧ after 0x496100#23 (allSet 0#7) (·.pc) = some 0x010#9
    ∧ after 0x498100#23 (allClear 0#7) (·.pc) = some 0x010#9
    ∧ after 0x49A100#23 (allSet 0#7) (·.pc) = some 0x010#9
    ∧ after 0x49C100#23 (allClear 0#7) (·.pc) = some 0x010#9
    ∧ after 0x49E100#23 (allSet 0#7) (·.pc) = some 0x010#9
    ∧ after 0x4A0100#23 (allClear 0#7) (·.pc) = some 0x010#9
    ∧ after 0x4A2100#23 (allSet 0#7) (·.pc) = some 0x010#9
    ∧ after 0x4A4100#23 (allClear 0#7) (·.pc) = some 0x010#9
    ∧ after 0x4A6100#23 (allSet 0#7) (·.pc) = some 0x010#9
    ∧ after 0x4A8100#23 (allClear 0#7) (·.pc) = some 0x010#9
    ∧ after 0x4AA100#23 (allSet 0#7) (·.pc) = some 0x010#9
    ∧ after 0x4AC100#23 (allClear 0#7) (·.pc) = some 0x010#9
    ∧ after 0x4AE100#23 (allSet 0#7) (·.pc) = some 0x010#9
    ∧ after 0x4B0100#23 (allClear 0x70#7) (·.pc) = some 0x010#9
    ∧ after 0x4B2100#23 (allClear 0x4F#7) (·.pc) = some 0x010#9
    ∧ after 0x4B4100#23 (allClear 0#7) (·.pc) = some 0x010#9
    ∧ after 0x4B6100#23 (allSet 0#7) (·.pc) = some 0x010#9
    ∧ after 0x4B8100#23 (allClear 0#7) (·.pc) = some 0x010#9
    ∧ after 0x4BA100#23 (allSet 0#7) (·.pc) = some 0x010#9
    ∧ after 0x4BC100#23 (allClear 0#7) (·.pc) = some 0x010#9
    ∧ after 0x4BE100#23 (allSet 0#7) (·.pc) = some 0x010#9 := by decide

/-- Each condition not taken. -/
theorem test_conditional_jumps_not_taken :
    after 0x480100#23 (allSet 0#7) (·.pc) = some 0x006#9
    ∧ after 0x482100#23 (allClear 0#7) (·.pc) = some 0x006#9
    ∧ after 0x484100#23 (allSet 0#7) (·.pc) = some 0x006#9
    ∧ after 0x486100#23 (allClear 0#7) (·.pc) = some 0x006#9
    ∧ after 0x488100#23 (allSet 0#7) (·.pc) = some 0x006#9
    ∧ after 0x48A100#23 (allClear 0#7) (·.pc) = some 0x006#9
    ∧ after 0x48C100#23 (allSet 0#7) (·.pc) = some 0x006#9
    ∧ after 0x48E100#23 (allClear 0#7) (·.pc) = some 0x006#9
    ∧ after 0x490100#23 (allSet 0#7) (·.pc) = some 0x006#9
    ∧ after 0x492100#23 (allClear 0#7) (·.pc) = some 0x006#9
    ∧ after 0x494100#23 (allSet 0#7) (·.pc) = some 0x006#9
    ∧ after 0x496100#23 (allClear 0#7) (·.pc) = some 0x006#9
    ∧ after 0x498100#23 (allSet 0#7) (·.pc) = some 0x006#9
    ∧ after 0x49A100#23 (allClear 0#7) (·.pc) = some 0x006#9
    ∧ after 0x49C100#23 (allSet 0#7) (·.pc) = some 0x006#9
    ∧ after 0x49E100#23 (allClear 0#7) (·.pc) = some 0x006#9
    ∧ after 0x4A0100#23 (allSet 0#7) (·.pc) = some 0x006#9
    ∧ after 0x4A2100#23 (allClear 0#7) (·.pc) = some 0x006#9
    ∧ after 0x4A4100#23 (allSet 0#7) (·.pc) = some 0x006#9
    ∧ after 0x4A6100#23 (allClear 0#7) (·.pc) = some 0x006#9
    ∧ after 0x4A8100#23 (allSet 0#7) (·.pc) = some 0x006#9
    ∧ after 0x4AA100#23 (allClear 0#7) (·.pc) = some 0x006#9
    ∧ after 0x4AC100#23 (allSet 0#7) (·.pc) = some 0x006#9
    ∧ after 0x4AE100#23 (allClear 0#7) (·.pc) = some 0x006#9
    ∧ after 0x4B0100#23 (allClear 0x48#7) (·.pc) = some 0x006#9
    ∧ after 0x4B2100#23 (allClear 0x70#7) (·.pc) = some 0x006#9
    ∧ after 0x4B4100#23 (allSet 0#7) (·.pc) = some 0x006#9
    ∧ after 0x4B6100#23 (allClear 0#7) (·.pc) = some 0x006#9
    ∧ after 0x4B8100#23 (allSet 0#7) (·.pc) = some 0x006#9
    ∧ after 0x4BA100#23 (allClear 0#7) (·.pc) = some 0x006#9
    ∧ after 0x4BC100#23 (allSet 0#7) (·.pc) = some 0x006#9
    ∧ after 0x4BE100#23 (allClear 0#7) (·.pc) = some 0x006#9 := by decide

/-- Each flag jump is taken when its own flag alone is 1. -/
theorem test_conditional_jumps_see_their_own_flag :
    after 0x482100#23 { allClear 0#7 with flagA := flg false false true false false false } (·.pc) = some 0x010#9
    ∧ after 0x486100#23 { allClear 0#7 with flagB := flg false false true false false false } (·.pc) = some 0x010#9
    ∧ after 0x48A100#23 { allClear 0#7 with flagA := flg false false false true false false } (·.pc) = some 0x010#9
    ∧ after 0x48E100#23 { allClear 0#7 with flagB := flg false false false true false false } (·.pc) = some 0x010#9
    ∧ after 0x492100#23 { allClear 0#7 with flagA := flg false false false false false true } (·.pc) = some 0x010#9
    ∧ after 0x496100#23 { allClear 0#7 with flagB := flg false false false false false true } (·.pc) = some 0x010#9
    ∧ after 0x49A100#23 { allClear 0#7 with flagA := flg false false false false true false } (·.pc) = some 0x010#9
    ∧ after 0x49E100#23 { allClear 0#7 with flagB := flg false false false false true false } (·.pc) = some 0x010#9
    ∧ after 0x4A2100#23 { allClear 0#7 with flagA := flg false true false false false false } (·.pc) = some 0x010#9
    ∧ after 0x4A6100#23 { allClear 0#7 with flagB := flg false true false false false false } (·.pc) = some 0x010#9
    ∧ after 0x4AA100#23 { allClear 0#7 with flagA := flg true false false false false false } (·.pc) = some 0x010#9
    ∧ after 0x4AE100#23 { allClear 0#7 with flagB := flg true false false false false false } (·.pc) = some 0x010#9 := by decide

/-! ### LDI (V8) -/

/-- LDI to destinations that share nothing with OP's tests. -/
theorem test_ldi :
    after 0x624681#23 State.reset (fun t => (t.accA, t.flagA, t.pc)) = some (0x1234#16, Flags.zero, 1#9)
    ∧ after 0x7FFFE4#23 State.reset (·.dp) = some 0x7F#7
    ∧ after 0x7FC005#23 State.reset (·.rp) = some 0x000#9
    ∧ after 0x600006#23 { State.reset with dr := 1#16 } (fun t => (t.dr, t.sr, t.drq)) = some (0#16, 0x8000#16, false)
    ∧ after 0x7FFFE7#23 { State.reset with sr := 0x9000#16 } (·.sr) = some 0xFF83#16
    ∧ after 0x700009#23 State.reset (fun t => (t.so, t.soack)) = some (0x0001#16, true)
    ∧ after 0x62000C#23 { State.reset with ram := [(0x40, 7#16)] } (fun t => (t.k, t.l)) = some (7#16, 0x1000#16)
    ∧ after 0x7579AF#23 { State.reset with dp := 0x7F#7 } (·.ram) = some [(0x7F, 0xABCD#16)] := by decide

/-! ### The agents (V9 to V13) -/

/-- Interrupt: accepted, lost, not enabled, taken (V9). -/
theorem test_interrupt :
    turned .intRise { State.reset with sr := 0x0080#16 } (fun t => (t.intLevel, t.intPending)) = some (true, true)
    ∧ turned .intRise State.reset (fun t => (t.intLevel, t.intPending)) = some (true, false)
    ∧ refusalOf (step { State.reset with intLevel := true, turns := [.intRise] }) = some .turnNotEnabled
    ∧ turned .intFall { State.reset with intLevel := true } (·.intLevel) = some false
    ∧ after 0x624681#23 { State.reset with intPending := true, pc := 0x021#9, stk := [0x0F0#9], sr := 0x0080#16 }
      (fun t => (t.pc, t.stk, t.sr, t.intPending, t.accA)) = some (0x100#9, [0x021#9, 0x0F0#9], 0#16, false, 0#16)
    ∧ turned .rst { State.reset with intPending := true, pc := 0x021#9, sr := 0xE383#16, stk := [0x0F0#9], drq := true }
      (fun t => (t.pc, t.intPending, t.sr, t.stk, t.drq)) = some (0#9, false, 0#16, [], false) := by decide

/-- After a reset an unlisted register holds a free value: neither zero nor what it held can be proved (V13). -/
theorem test_reset_frees_unlisted (x : Word) :
    turned .rst { State.reset with accA := x } (fun t => t.accA) = some (Config.wordAfterReset .accA 0 x)
    ∧ turned .rst { State.reset with siack := true } (fun t => (t.siack, t.draws))
      = some (Config.siackAfterReset 0 true, 1) := ⟨rfl, rfl⟩

/-- The host writes 1234H, reads ABCDH, and uses 8-bit and DMA mode (V10). -/
theorem test_host :
    turned (.bus (writeCycle 0x34#8)) { State.reset with sr := 0x8000#16 } (fun t => (t.dr, t.sr))
      = some (0x0034#16, 0x9000#16)
    ∧ turned (.bus (writeCycle 0x12#8)) { State.reset with sr := 0x9000#16, dr := 0x0034#16, xferDir := some .hostWrites }
      (fun t => (t.dr, t.sr)) = some (0x1234#16, 0x0000#16)
    ∧ turned (.bus readCycle) { State.reset with sr := 0x9000#16, dr := 0xABCD#16, xferDir := some .hostReads }
      (fun t => (t.dBus, t.sr)) = some (some 0xAB#8, 0x0000#16)
    ∧ turned (.bus (writeCycle 0x55#8)) { State.reset with sr := 0x8400#16, dr := 0xABCD#16 } (fun t => (t.dr, t.sr))
      = some (0xAB55#16, 0x0400#16)
    ∧ turned (.bus statusCycle) { State.reset with sr := 0xE383#16 } (·.dBus) = some (some 0xE3#8)
    ∧ turned (.bus ⟨true, true, false, true, false, 0x12#8⟩)
      { State.reset with sr := 0x9800#16, drq := true, xferDir := some .hostWrites } (fun t => (t.dr, t.sr, t.drq))
      = some (0x1200#16, 0x8800#16, false) := by decide

/-- Cycles outside the guarantee are refused, each under its own name (R368). -/
theorem test_host_refusals :
    refusalOf (step { State.reset with turns := [.bus ⟨false, true, false, true, true, 0#8⟩] }) = some .prohibitedBusCycle
    ∧ refusalOf (step { State.reset with turns := [.bus ⟨false, false, false, false, true, 0#8⟩] }) = some .prohibitedBusCycle
    ∧ refusalOf (step { State.reset with turns := [.bus ⟨true, true, false, true, false, 0#8⟩] }) = some .dackOutsideDma
    ∧ refusalOf (step { State.reset with sr := 0x1000#16, xferDir := some .hostReads, turns := [.bus (writeCycle 1#8)] })
      = some .mixedTransfer
    ∧ refusalOf (step { State.reset with xferSpoilt := true, turns := [.bus readCycle] }) = some .transferModeChanged := by
  decide

/-- The last bit of an input word, in both modes, and a bit in the middle (V11). -/
theorem test_serial_input :
    turned (.sckRise false true) { State.reset with sisr := 0x6000#16, sicnt := 15 }
      (fun t => (t.si, t.siack, t.sicnt)) = some (0xC001#16, true, 0)
    ∧ turned (.sckRise false true) { State.reset with sisr := 0xFF52#16, sicnt := 7, sr := 0x0100#16 }
      (fun t => (t.si, t.siack, t.sicnt)) = some (0x00A5#16, true, 0)
    ∧ turned (.sckRise false true) { State.reset with sisr := 1#16, sicnt := 3 } (fun t => (t.sisr, t.siack, t.sicnt))
      = some (3#16, false, 4)
    ∧ turned (.sckRise true true) { State.reset with sicnt := 3 } (fun t => (t.sisr, t.sicnt)) = some (0#16, 3)
    ∧ refusalOf (step { State.reset with siSpoilt := true, turns := [.sckRise false true] }) = some .serialInputModeChanged := by
  decide

/-- Loading the shift register, the first and the last bit of an output word, the reload (V12). -/
theorem test_serial_output :
    turned .soLoad { State.reset with so := 0x8003#16, soack := true }
      (fun t => (t.sosr, t.sosrBusy, t.soack, t.sorq)) = some (0x8003#16, true, false, true)
    ∧ refusalOf (step { State.reset with turns := [.soLoad] }) = some .turnNotEnabled
    ∧ turned .sckFall { State.reset with soenLevel := false, sosr := 0x8002#16, sosrBusy := true, sorq := true }
      (fun t => (t.soPin, t.socnt)) = some (false, 1)
    ∧ turned .sckFall { State.reset with soenLevel := false, sosr := 0x8002#16, sosrBusy := true, sorq := true, socnt := 15 }
      (fun t => (t.soPin, t.socnt, t.sosrBusy, t.sorq)) = some (true, 0, false, false)
    ∧ turned .sckFall
      { State.reset with
        soenLevel := false, so := 9#16, soack := true, sosrBusy := true, sorq := true, socnt := 7, sr := 0x0200#16 }
      (fun t => (t.sosr, t.sorq, t.soack)) = some (9#16, true, false)
    ∧ turned .sckFall { State.reset with sosrBusy := true, sorq := true, soPin := false } (·.soPin) = some true
    ∧ refusalOf (step { State.reset with soenLevel := false, sorq := true, soSpoilt := true, turns := [.sckFall] })
      = some .serialOutputModeChanged := by decide

/-- The idle pin (R386, R388): a last bit 0 is held until the rising edge, or until SOEN/ goes high; SOEN/ going high in
mid-word raises the pin, and going low again does not lower it. -/
theorem test_serial_output_idle :
    (nextOf (Host.Core.run Sys2Proof.core 1
      { State.reset with soenLevel := false, sosrBusy := true, sorq := true, socnt := 15, turns := [.sckFall] })).map
        (fun t => (t.soPin, t.sorq)) = some (false, false)
    ∧ (nextOf (Host.Core.run Sys2Proof.core 2
      { State.reset with
        soenLevel := false, sosrBusy := true, sorq := true, socnt := 15, turns := [.sckFall, .sckRise true false] })).map
        (·.soPin) = some true
    ∧ (nextOf (Host.Core.run Sys2Proof.core 3
      { State.reset with
        soenLevel := false, sosrBusy := true, sorq := true, turns := [.sckFall, .soen true, .soen false] })).map
        (fun t => (t.soPin, t.socnt, t.soenLevel)) = some (true, 1, false) := by decide

/-- A mode bit changed in mid-word is noticed, a write that keeps it is not: SIC, SOC, DMA (R368, R379, R390). -/
theorem test_mode_changes_noticed :
    after 0x602007#23 { State.reset with sicnt := 3 } (fun t => (t.siSpoilt, t.soSpoilt, t.xferSpoilt))
      = some (true, false, false)
    ∧ after 0x604007#23 { State.reset with sosrBusy := true } (fun t => (t.siSpoilt, t.soSpoilt, t.xferSpoilt))
      = some (false, true, false)
    ∧ after 0x610007#23 { State.reset with sr := 0x1000#16 } (fun t => (t.siSpoilt, t.soSpoilt, t.xferSpoilt))
      = some (false, false, true)
    ∧ after 0x600007#23 { State.reset with sicnt := 3, sosrBusy := true, sr := 0x1000#16 }
      (fun t => (t.siSpoilt, t.soSpoilt, t.xferSpoilt)) = some (false, false, false) := by decide

/-! ### The assembler (R140 to R145) -/

/-- T2's statement, T1's and T3's, with their text. -/
theorem test_assembler :
    ((Statement.op [.mov .klr .mem, .alu .add .accA (some .m), .dpl .dpinc, .dph 1#3, .rp .rpdec, .ret]).instr 0#9 []).map
      encode = some 0x3293FB#23
    ∧ ((Statement.jcc .jsa0 (.label "OVFLOW")).instr 0#9 [("OVFLOW", 0x123#9)]).map encode = some 0x4A3230#23
    ∧ ((Statement.jmp (.here 2#9)).instr 0x010#9 []).map encode = some 0x500120#23
    ∧ (Statement.ldi .a 0x1234#16).text = "LDI @A,1234H ;"
    ∧ (Statement.jcc .jnova1 (.here 2#9)).text = "JNOVA1 $+2 ;"
    ∧ (Statement.op [.mov .b .k, .alu .add .accA (some .m), .dph 1#3]).text = "OP MOV @B,K ADD ACCA,M M1 ;"
    ∧ assembleOp [.ret, .ret] = none ∧ assembleOp [.alu .inc .accA (some .m)] = none := by decide

/-! ### For each statement with hypotheses, values that meet them all

Each theorem is named after its statement; where the statement has clauses, each clause has its own values. -/

/-- WellFormedWordIsEncodeOfItsDecode: a JP, an LDI and an RT word. -/
theorem test_witness_WellFormedWordIsEncodeOfItsDecode :
    (decode 0x4A3230#23 = .instr (.jsa0 0x123#9) ∧ wellFormedWord 0x4A3230#23 = true)
    ∧ (decode 0x7FFFE7#23 = .instr (.ldi .sr 0xFFFF#16) ∧ wellFormedWord 0x7FFFE7#23 = true)
    ∧ (decode 0x3293FB#23 = .instr (.rtAdd ⟨.m, .accA, .dpinc, 1#3, .rpdec, .mem, .klr⟩)
      ∧ wellFormedWord 0x3293FB#23 = true) := by decide

/-- OnlyUndefinedBranchWordsFault: an undefined word at PC with no turn listed and with the core's, and a defined word. -/
theorem test_witness_OnlyUndefinedBranchWordsFault :
    (let s : State := { State.reset with irom := [(0, 0x5C0000#23)] }
     s.turns = [] ∧ s.intPending = false ∧ faultOf (step s) = some .undefinedBranch)
    ∧ (let s : State := { State.reset with irom := [(0, 0x5C0000#23)], turns := [.core, .rst] }
       s.turns = .core :: [.rst] ∧ s.intPending = false ∧ faultOf (step s) = some .undefinedBranch)
    ∧ (State.reset.turns = [] ∧ State.reset.intPending = false ∧ faultOf (step State.reset) = none) := by decide

/-- StepRunsTheDecodedInstruction: with no turn listed, and with the core's turn listed before a reset. -/
theorem test_witness_StepRunsTheDecodedInstruction :
    (let s : State := { State.reset with irom := [(0, 0x501230#23)] }
     decode s.fetch = .instr (.jmp 0x123#9) ∧ s.intPending = false ∧ s.turns = [])
    ∧ (let s : State := { State.reset with irom := [(0, 0x501230#23)], turns := [.core, .rst] }
       decode s.fetch = .instr (.jmp 0x123#9) ∧ s.intPending = false ∧ s.turns = .core :: [.rst]) := by decide

/-- PlacedInstructionRunsNext: over an instruction ROM that holds other words, at the top address. -/
theorem test_witness_PlacedInstructionRunsNext :
    (let s : State := { State.reset with irom := [(3, 1#23), (0x1FF, 2#23)], pc := 0x1FF#9, intPending := true }
     Memory.wf Config.iromSize s.irom ∧ decodeTableWord 23 0x540400 = some (.call 0x040#9)
      ∧ (s.withFetchWord 23 0x540400).irom = [(3, 1#23), (0x1FF, 0x540400#23)]) := by decide

/-- A state of the invariant with every part of it in use: memory, a full stack, a transfer half done, a serial word. -/
def busyState : State :=
  { State.reset with
    irom := [(0, 0x00101F#23)], ram := [(0x0F, 1#16), (0x7F, 2#16)], drom := [(0x1FF, 3#13)], stk := [1#9, 2#9, 3#9, 4#9],
    sr := 0x9080#16, xferDir := some .hostWrites, sosrBusy := true, sorq := true, socnt := 15, sicnt := 15, dp := 0x0F#7 }

/-- EveryStepKeepsTheInvariant, NoStepWritesARom: a store from a busy state. -/
theorem test_witness_EveryStepKeepsTheInvariant : busyState.Inv ∧ ∃ t, step busyState = .next t := ⟨by decide, _, rfl⟩

/-- NoStepWritesARom. -/
theorem test_witness_NoStepWritesARom : ∃ t, step { busyState with turns := [.intFall, .rst], intLevel := true } = .next t :=
  ⟨_, rfl⟩

/-- ResetLeavesTheListedValues: a reset amid an interrupt, a transfer and a serial word, the RAM canonical and in use. -/
theorem test_witness_ResetLeavesTheListedValues :
    ({ busyState with turns := [.rst, .core], intPending := true } : State).turns = .rst :: [.core]
    ∧ Memory.wf Config.ramSize busyState.ram ∧ busyState.ram ≠ [] := by decide

/-- OnlyAReturnOnAnEmptyStackStops. -/
theorem test_witness_OnlyAReturnOnAnEmptyStackStops : Stopped (exec (.rtNop plain) State.reset) := trivial

/-- EachSourceDrivesTheBus: a source each of the common kinds, the destination TR. -/
theorem test_witness_EachSourceDrivesTheBus :
    ({ plain with dst := .tr, src := .ro } : OpFields).dst = .tr ∧ ({ plain with dst := .tr } : OpFields).dst = .tr := by
  decide

/-- KlmLoadsKFromHighRamAndLFromTheBus. -/
theorem test_witness_KlmLoadsKFromHighRamAndLFromTheBus : ({ plain with dst := .klm, src := .mem } : OpFields).dst = .klm :=
  rfl

/-- OpStoresOnlyAtTheStartingDp: a canonical RAM, at both ends of the address range; the clauses' own fields. -/
theorem test_witness_OpStoresOnlyAtTheStartingDp :
    Memory.wf Config.ramSize ([(0, 1#16), (0x7F, 2#16)] : Memory 16)
    ∧ (let f : OpFields := { plain with dst := .mem, src := .mem }
       f.dst = .mem ∧ f.src = .mem ∧ f.psel = .ram ∧ f.asl = .accA) := by decide

/-- DrTransfersAskForTheMaster: each clause, DMA = 0 and DMA = 1. -/
theorem test_witness_DrTransfersAskForTheMaster :
    (let f : OpFields := { plain with src := .dr, dst := .tr }
     (f.src = .dr ∨ f.dst = .dr) ∧ (f.src = .dr ∨ f.src = .drnf) ∧ f.dst = .tr)
    ∧ (let f : OpFields := { plain with src := .drnf, dst := .dr }
       f.dst = .dr ∧ (f.src = .dr ∨ f.src = .drnf))
    ∧ (let f : OpFields := { plain with src := .drnf, dst := .tr }
       f.src = .drnf ∧ f.dst ≠ .dr)
    ∧ State.reset.dma = false ∧ ({ State.reset with sr := 0x0800#16 } : State).dma = true := by decide

/-- SerialDestinationsLoadSoInSendingOrder: both destinations. -/
theorem test_witness_SerialDestinationsLoadSoInSendingOrder :
    (let f : OpFields := { plain with dst := .sol }
     f.dst = .sol ∨ f.dst = .som)
    ∧ (let f : OpFields := { plain with dst := .som }
       f.dst = .sol ∨ f.dst = .som) := by decide

/-- SrWriteReachesOnlyTheProgramBits: with a source that signals nothing and with DR. -/
theorem test_witness_SrWriteReachesOnlyTheProgramBits :
    (let f : OpFields := { plain with dst := .sr, src := .a }
     f.dst = .sr ∧ f.src ≠ .dr)
    ∧ (let f : OpFields := { plain with dst := .sr, src := .dr }
       f.dst = .sr) := by decide

/-- OpUpdatesTheDataPointer: the clauses exclude each other; each has its fields. -/
theorem test_witness_OpUpdatesTheDataPointer :
    (let f : OpFields := { plain with dst := .dp, src := .a, dpl := .dpinc, dphm := 7#3 }
     f.dst = .dp)
    ∧ (let f : OpFields := { plain with dst := .tr, src := .mem, dpl := .dpinc, dphm := 6#3 }
       f.dst ≠ .dp ∧ f.dst = .tr ∧ f.src = .mem)
    ∧ (let f : OpFields := { plain with dst := .tr, src := .dp, dpl := .dpdec }
       f.dst ≠ .dp ∧ f.dst = .tr ∧ f.src = .dp) := by decide

/-- OpAdvancesAndLeavesTheRest: a destination that leaves RAM; the three changes of a mode bit, each alone, and none. -/
theorem test_witness_OpAdvancesAndLeavesTheRest :
    plain.dst ≠ .mem
    ∧ (let s : State := { State.reset with sicnt := 1, sosrBusy := true, sr := 0x1000#16 }
       ChangesSicInMidWord 0x0100#16 s ∧ ¬ChangesSocInMidWord 0x0100#16 s ∧ ¬ChangesTransferMode 0x0100#16 s
        ∧ ¬ChangesSicInMidWord 0x0200#16 s ∧ ChangesSocInMidWord 0x0200#16 s ∧ ¬ChangesTransferMode 0x0200#16 s
        ∧ ChangesTransferMode 0x0400#16 s ∧ ChangesTransferMode 0x0800#16 s ∧ ¬ChangesTransferMode 0x0000#16 s)
    ∧ ¬ChangesSicInMidWord 0x0100#16 State.reset ∧ ¬ChangesSocInMidWord 0x0200#16 State.reset
    ∧ ¬ChangesTransferMode 0x0C00#16 State.reset := by
  unfold ChangesSicInMidWord ChangesSocInMidWord ChangesTransferMode
  decide

/-- RtDoesTheSameAndReturns: one address on the stack, and four. -/
theorem test_witness_RtDoesTheSameAndReturns :
    ({ State.reset with stk := [0x1FF#9] } : State).stk = 0x1FF#9 :: []
    ∧ busyState.stk = 1#9 :: [2#9, 3#9, 4#9] := by decide

/-- RtOnAnEmptyStackFaults. -/
theorem test_witness_RtOnAnEmptyStackFaults : State.reset.stk = [] := rfl

/-- MoveToTheAluAccumulatorWins: a move to A with each ASL, a move to B with each ASL. -/
theorem test_witness_MoveToTheAluAccumulatorWins :
    (let f : OpFields := { plain with dst := .a }
     f.dst = .a ∧ f.asl = .accA)
    ∧ (let f : OpFields := { plain with dst := .a, asl := .accB }
       f.dst = .a ∧ f.asl = .accB)
    ∧ (let f : OpFields := { plain with dst := .b }
       f.dst = .b ∧ f.asl = .accA)
    ∧ (let f : OpFields := { plain with dst := .b, asl := .accB }
       f.dst = .b ∧ f.asl = .accB) := by decide

/-- A move to B while the ALU works on A, the word under DP as operand. -/
theorem notMovedOver_example : NotMovedOver { plain with dst := .b, src := .a } := by
  unfold NotMovedOver
  decide

/-- AdditionsGiveSumAndFlags: ADD, ADC with a carry, INC. -/
theorem test_witness_AdditionsGiveSumAndFlags :
    let f : OpFields := { plain with dst := .b, src := .a }
    let s := aluStart 0x7FFF#16 0xFFFF#16 true Flags.zero
    NotMovedOver f ∧ AdditionInputs .add f s 0xFFFF#16 false ∧ AdditionInputs .adc f s 0xFFFF#16 true
      ∧ AdditionInputs .inc f s 1#16 false :=
  ⟨notMovedOver_example, .inl ⟨rfl, rfl, rfl⟩, .inr (.inl ⟨rfl, rfl, rfl⟩), .inr (.inr ⟨rfl, rfl, rfl⟩)⟩

/-- SubtractionsGiveDifferenceAndFlags: SUB, SBB with a borrow, DEC. -/
theorem test_witness_SubtractionsGiveDifferenceAndFlags :
    let f : OpFields := { plain with dst := .b, src := .a }
    let s := aluStart 0#16 0xFFFF#16 true Flags.zero
    NotMovedOver f ∧ SubtractionInputs .sub f s 0xFFFF#16 false ∧ SubtractionInputs .sbb f s 0xFFFF#16 true
      ∧ SubtractionInputs .dec f s 1#16 false :=
  ⟨notMovedOver_example, .inl ⟨rfl, rfl, rfl⟩, .inr (.inl ⟨rfl, rfl, rfl⟩), .inr (.inr ⟨rfl, rfl, rfl⟩)⟩

/-- LogicalAndShiftFunctionsGiveResultAndFlags: AND, and SHL1 with both carries. -/
theorem test_witness_LogicalAndShiftFunctionsGiveResultAndFlags :
    NotMovedOver { plain with dst := .b, src := .a }
    ∧ logicalResult .and 0xFFFF#16 0x8000#16 false = some (0x8000#16, false)
    ∧ logicalResult .shl1 0x8000#16 0#16 true = some (0x0001#16, true) := ⟨notMovedOver_example, by decide, by decide⟩

/-- ArithmeticUpdatesTheOverflowRun: an arithmetic function with OV1 = 0 and with OV1 = 1 before. -/
theorem test_witness_ArithmeticUpdatesTheOverflowRun :
    NotMovedOver { plain with dst := .b, src := .a } ∧ IsArithmetic .sub ∧ (State.reset.flags .accA).ov1 = false
    ∧ ((aluStart 0#16 0#16 false (flg true true false false true true)).flags .accA).ov1 = true :=
  ⟨notMovedOver_example, .inl rfl, rfl, rfl⟩

/-- ThreeOperationOverflowGuarantee: one operation just in range, one just out of it, three. -/
theorem test_witness_ThreeOperationOverflowGuarantee :
    (Flags.zero.ov1 = false ∧ (∀ o ∈ [(AluFn.inc, (0#16, false))], IsArithmetic o.1))
    ∧ exactSum 0x7FFE#16 [(.inc, 0#16, false)] = 32767 ∧ OutOfRange (exactSum 0x7FFF#16 [(.inc, 0#16, false)])
    ∧ (∀ o ∈ [(AluFn.add, (1#16, false)), (AluFn.sub, (2#16, false)), (AluFn.adc, (0x7FFF#16, true))], IsArithmetic o.1) := by
  unfold IsArithmetic OutOfRange
  decide

/-- ProductIsExactButForTheMostNegativePair: its two premises, the second one next to the first. -/
theorem test_witness_ProductIsExactButForTheMostNegativePair :
    (let s : State := { State.reset with k := 0x8000#16, l := 0x8000#16 }
     s.k = 0x8000#16 ∧ s.l = 0x8000#16)
    ∧ (let s : State := { State.reset with k := 0x8000#16, l := 0x8001#16 }
       ¬(s.k = 0x8000#16 ∧ s.l = 0x8000#16)) := by decide

/-- NewProductIsSeenByTheNextInstruction: each destination, both halves of the product, both accumulators. -/
theorem test_witness_NewProductIsSeenByTheNextInstruction :
    (∀ d : Dst, d = .k ∨ d = .l ∨ d = .klr ∨ d = .klm →
      let f : OpFields := { plain with psel := .n, asl := .accB, dst := d, src := .mem }
      (f.psel = .m ∨ f.psel = .n) ∧ (f.dst = .k ∨ f.dst = .l ∨ f.dst = .klr ∨ f.dst = .klm))
    ∧ (let f : OpFields := { plain with psel := .m, dst := .k, src := .mem }
       (f.psel = .m ∨ f.psel = .n) ∧ (f.dst = .k ∨ f.dst = .l ∨ f.dst = .klr ∨ f.dst = .klm))
    ∧ NotMovedOver { plain with psel := .m } ∧ NotMovedOver { plain with psel := .n, asl := .accB, dst := .a } :=
  ⟨fun _ h => ⟨.inr rfl, h⟩, by decide, by unfold NotMovedOver; decide, by unfold NotMovedOver; decide⟩

/-- ReturnComesBackAfterTheCall: three addresses held, the most the statement admits. -/
theorem test_witness_ReturnComesBackAfterTheCall :
    let s : State := { State.reset with stk := [1#9, 2#9, 3#9], pc := 0x1FF#9 }
    s.stk.length ≤ 3 ∧ ∃ t, exec (.call 0x040#9) s = .next t := ⟨by decide, _, rfl⟩

/-- ConditionalJumpsTestTheirCondition: a condition that holds and the same that does not, DP at both ends. -/
theorem test_witness_ConditionalJumpsTestTheirCondition :
    conditionHolds .jdplf (allClear 0x7F#7) ∧ ¬conditionHolds .jdplf (allClear 0x7E#7)
    ∧ conditionHolds .jrqm (allSet 0#7) ∧ ¬conditionHolds .jrqm (allClear 0#7) :=
  ⟨show (0x7F#7).toNat % 16 = 15 by decide, show ¬(0x7E#7).toNat % 16 = 15 by decide,
    show 32768 ≤ (0x8000#16).toNat by decide, show ¬32768 ≤ (0x0000#16).toNat by decide⟩

/-- LdiLatchesTheImmediate. -/
theorem test_witness_LdiLatchesTheImmediate : Memory.wf Config.ramSize busyState.ram := by decide

/-- PendingInterruptIsTaken: with a full stack, no turn listed, and the core's turn listed before another. -/
theorem test_witness_PendingInterruptIsTaken :
    (let s : State := { busyState with intPending := true }
     s.intPending = true ∧ s.turns = [] ∧ s.stk.length = 4)
    ∧ (let s : State := { busyState with intPending := true, turns := [.core, .intFall] }
       s.intPending = true ∧ s.turns = .core :: [.intFall]) := by decide

/-- InterruptEdgeIsAcceptedOnlyWhileEnabled: each clause. -/
theorem test_witness_InterruptEdgeIsAcceptedOnlyWhileEnabled :
    (let s : State := { State.reset with turns := [.intRise], intLevel := true }
     s.turns = .intRise :: [] ∧ s.intLevel = true)
    ∧ (let s : State := { State.reset with turns := [.intRise], sr := 0x0080#16 }
       s.turns = .intRise :: [] ∧ s.intLevel = false ∧ s.ei = true)
    ∧ (let s : State := { State.reset with turns := [.intRise], sr := 0xFF7F#16 }
       s.turns = .intRise :: [] ∧ s.intLevel = false ∧ s.ei = false)
    ∧ (let s : State := { State.reset with turns := [.intFall], intLevel := true }
       s.turns = .intFall :: [] ∧ s.intLevel = true)
    ∧ ({ State.reset with turns := [.intFall] } : State).turns = .intFall :: [] := by decide

/-- EnableInterruptChangesOnlyAsListed: EI set by an LDI (the core's turn not listed, and listed), cleared by one, by the
entry and by a reset; an edge. -/
theorem test_witness_EnableInterruptChangesOnlyAsListed :
    after 0x601007#23 State.reset (·.ei) = some true
    ∧ turned .core { State.reset with irom := [(0, 0x601007#23)] } (·.ei) = some true
    ∧ after 0x600007#23 { State.reset with sr := 0x0080#16 } (·.ei) = some false
    ∧ after 0x600007#23 { State.reset with sr := 0x0080#16, intPending := true } (fun t => (t.ei, t.pc))
      = some (false, 0x100#9)
    ∧ turned .core { State.reset with sr := 0x0080#16, intPending := true } (fun t => (t.ei, t.pc))
      = some (false, 0x100#9)
    ∧ turned .rst { State.reset with sr := 0x0080#16 } (·.ei) = some false
    ∧ State.reset.intPending = false ∧ State.reset.intLevel = false := by decide

/-- ProgramCannotWriteHardwareState: an LDI to SR of all ones from a busy state. -/
theorem test_witness_ProgramCannotWriteHardwareState :
    (∃ t, exec (.ldi .sr 0xFFFF#16) busyState = .next t) ∧ busyState.rqm = true ∧ busyState.drs = true := ⟨⟨_, rfl⟩, by decide⟩

/-- The host's cycles by DACK/, the other pins idle (R367). -/
def dackWrite (b : Byte) : BusCycle := ⟨true, true, false, true, false, b⟩
def dackRead : BusCycle := ⟨true, true, true, false, false, 0#8⟩

/-- HostWritesASixteenBitWord: by CS/ with DMA = 0, and by DACK/ with DMA = 1, where DRQ falls at the second byte only. -/
theorem test_witness_HostWritesASixteenBitWord :
    (let s : State := { State.reset with sr := 0x8000#16, turns := [.bus (writeCycle 0x34#8), .bus (writeCycle 0x12#8)] }
     WritesDr (writeCycle 0x34#8) s ∧ WritesDr (writeCycle 0x12#8) s
      ∧ s.turns = .bus (writeCycle 0x34#8) :: .bus (writeCycle 0x12#8) :: [] ∧ s.drc = false ∧ s.drs = false
      ∧ s.xferSpoilt = false ∧ s.dma = false)
    ∧ (let s : State :=
         { State.reset with sr := 0x0800#16, drq := true, turns := [.bus (dackWrite 0x34#8), .bus (dackWrite 0x12#8)] }
       WritesDr (dackWrite 0x34#8) s ∧ WritesDr (dackWrite 0x12#8) s
        ∧ s.turns = .bus (dackWrite 0x34#8) :: .bus (dackWrite 0x12#8) :: [] ∧ s.drc = false ∧ s.drs = false
        ∧ s.xferSpoilt = false ∧ s.dma = true
        ∧ (nextOf (step s)).map (·.drq) = some true
        ∧ (nextOf (Host.Core.run Sys2Proof.core 2 s)).map (fun t => (t.dr, t.drq)) = some (0x1234#16, false)) := by
  unfold WritesDr AccessesDr
  decide

/-- HostReadsASixteenBitWord: by CS/ in DMA mode, and by DACK/. -/
theorem test_witness_HostReadsASixteenBitWord :
    (let s : State := { State.reset with sr := 0x8800#16, turns := [.bus readCycle, .bus readCycle, .core] }
     ReadsDr readCycle s ∧ s.turns = .bus readCycle :: .bus readCycle :: [.core] ∧ s.drc = false ∧ s.drs = false
      ∧ s.xferSpoilt = false ∧ s.dma = true)
    ∧ (let s : State := { State.reset with sr := 0x0800#16, drq := true, turns := [.bus dackRead, .bus dackRead] }
       ReadsDr dackRead s ∧ s.turns = .bus dackRead :: .bus dackRead :: [] ∧ s.drc = false ∧ s.drs = false
        ∧ s.xferSpoilt = false ∧ s.dma = true) := by
  unfold ReadsDr AccessesDr
  decide

/-- HostTransfersOneByteInEightBitMode: a write by CS/ with DMA = 0, a read and a write by DACK/ with DMA = 1. -/
theorem test_witness_HostTransfersOneByteInEightBitMode :
    (let s : State := { State.reset with sr := 0x8400#16, turns := [.bus (writeCycle 0xFF#8)] }
     s.turns = .bus (writeCycle 0xFF#8) :: [] ∧ s.drc = true ∧ s.drs = false ∧ s.xferSpoilt = false
      ∧ WritesDr (writeCycle 0xFF#8) s ∧ s.dma = false)
    ∧ (let s : State := { State.reset with sr := 0x0C00#16, turns := [.bus dackRead] }
       s.turns = .bus dackRead :: [] ∧ s.drc = true ∧ s.drs = false ∧ s.xferSpoilt = false ∧ ReadsDr dackRead s
        ∧ WritesDr (dackWrite 0#8) s ∧ s.dma = true) := by
  unfold WritesDr ReadsDr AccessesDr
  decide

/-- HostReadsTheStatusByte. -/
theorem test_witness_HostReadsTheStatusByte :
    ({ busyState with turns := [.bus statusCycle] } : State).turns = .bus statusCycle :: [] := rfl

/-- BusCyclesFollowTheTable: each row. The rows exclude each other by the levels of the pins, but for the DACK/ row, which
gives the same outcome as the row of the cycle it is equal to. -/
theorem test_witness_BusCyclesFollowTheTable :
    (let c : BusCycle := ⟨true, false, false, false, true, 0#8⟩
     c.cs = true ∧ c.dack = true)
    ∧ (let c : BusCycle := ⟨false, false, true, true, true, 0#8⟩
       c.wr = true ∧ c.rd = true)
    ∧ (let c := writeCycle 0x12#8
       let s : State := { busyState with turns := [.bus c] }
       s.turns = .bus c :: [] ∧ c.cs = false ∧ c.dack = true ∧ c.a0 = false ∧ c.wr = false ∧ c.rd = true
        ∧ s.xferSpoilt = false ∧ s.drs = true ∧ s.xferDir ≠ some .hostReads)
    ∧ (let c := readCycle
       let s : State := { State.reset with turns := [.bus c] }
       s.turns = .bus c :: [] ∧ c.cs = false ∧ c.dack = true ∧ c.a0 = false ∧ c.wr = true ∧ c.rd = false
        ∧ s.xferSpoilt = false ∧ (s.drs = true → s.xferDir ≠ some .hostWrites))
    ∧ (let c := statusCycle
       c.cs = false ∧ c.dack = true ∧ c.a0 = true ∧ c.wr = true ∧ c.rd = false)
    ∧ (let c : BusCycle := ⟨false, true, false, true, true, 0#8⟩
       c.cs = false ∧ c.dack = true ∧ c.a0 = true ∧ c.wr = false ∧ c.rd = true)
    ∧ (let c : BusCycle := ⟨false, false, false, false, true, 0#8⟩
       (c.cs = false ∨ c.dack = false) ∧ c.wr = false ∧ c.rd = false)
    ∧ ((dackWrite 0x12#8).dack = false ∧ ({ State.reset with sr := 0x0800#16 } : State).dma = true)
    ∧ (let c : BusCycle := ⟨true, true, true, false, false, 0#8⟩
       c.dack = false ∧ c.wr ≠ c.rd ∧ State.reset.dma = false) := by decide

/-- BusCyclesFollowTheTable: the refusals of R368 and the two DACK/ rows of 8-bit mode. -/
theorem test_witness_BusCyclesFollowTheTable_dma :
    (let s : State := { busyState with turns := [.bus readCycle], xferSpoilt := true }
     s.turns = .bus readCycle :: [] ∧ AccessesDr readCycle s ∧ readCycle.wr ≠ readCycle.rd ∧ s.xferSpoilt = true)
    ∧ (let s : State := { busyState with turns := [.bus readCycle] }
       s.turns = .bus readCycle :: [] ∧ AccessesDr readCycle s ∧ readCycle.wr ≠ readCycle.rd ∧ s.xferSpoilt = false
        ∧ s.drs = true ∧ s.xferDir = some (if readCycle.wr = true then .hostWrites else .hostReads))
    ∧ (let c := dackWrite 0x12#8
       let s : State := { State.reset with sr := 0x0C00#16, turns := [.bus c] }
       s.turns = .bus c :: [] ∧ c.dack = false ∧ c.wr = false ∧ c.rd = true ∧ s.dma = true ∧ s.drc = true ∧ s.drs = false
        ∧ s.xferSpoilt = false)
    ∧ (let c := dackRead
       let s : State := { State.reset with sr := 0x0C00#16, turns := [.bus c] }
       s.turns = .bus c :: [] ∧ c.dack = false ∧ c.wr = true ∧ c.rd = false ∧ s.dma = true ∧ s.drc = true ∧ s.drs = false
        ∧ s.xferSpoilt = false) := by
  unfold AccessesDr
  decide

/-- HostReachesOnlyThePort. -/
theorem test_witness_HostReachesOnlyThePort : ∃ t, takeTurn (.bus (writeCycle 0x12#8)) State.reset = .next t := ⟨_, rfl⟩

/-- SerialInputShiftsOneBit: SIEN/ high, SIC changed in mid-word, the bit before the last and the last, in both modes. -/
theorem test_witness_SerialInputShiftsOneBit :
    (({ busyState with turns := [.sckRise true true] } : State).turns = .sckRise true true :: [])
    ∧ (let s : State := { busyState with turns := [.sckRise false true], siSpoilt := true }
       s.turns = .sckRise false true :: [] ∧ s.siSpoilt = true)
    ∧ (let s : State := { State.reset with sicnt := 14, turns := [.sckRise false true] }
       s.turns = .sckRise false true :: [] ∧ s.siSpoilt = false ∧ s.sicnt + 1 < (if s.sic = true then 8 else 16))
    ∧ (let s : State := { State.reset with sicnt := 15, turns := [.sckRise false true] }
       s.turns = .sckRise false true :: [] ∧ s.siSpoilt = false ∧ (if s.sic = true then 8 else 16) ≤ s.sicnt + 1
        ∧ s.sic = false)
    ∧ (let s : State := { State.reset with sicnt := 7, sr := 0x0100#16, turns := [.sckRise false true] }
       s.turns = .sckRise false true :: [] ∧ s.siSpoilt = false ∧ (if s.sic = true then 8 else 16) ≤ s.sicnt + 1
        ∧ s.sic = true) := by decide

/-- SerialInputDeliversTheWord: both modes. -/
theorem test_witness_SerialInputDeliversTheWord :
    (let s : State := { State.reset with turns := serialInTurns 16 (fun i => (0xC001#16).getLsbD (15 - i)) }
     s.sic = false ∧ s.sicnt = 0 ∧ s.siSpoilt = false
      ∧ s.turns = serialInTurns 16 (fun i => (0xC001#16).getLsbD (15 - i)))
    ∧ (let s : State :=
         { State.reset with sr := 0x0100#16, turns := serialInTurns 8 (fun i => (0xA5#8).getLsbD (7 - i)) }
       s.sic = true ∧ s.sicnt = 0 ∧ s.siSpoilt = false
        ∧ s.turns = serialInTurns 8 (fun i => (0xA5#8).getLsbD (7 - i))) := by decide

/-- SerialOutputLoadsTheShiftRegister: enabled, and not enabled for either reason. -/
theorem test_witness_SerialOutputLoadsTheShiftRegister :
    (let s : State := { State.reset with soack := true, turns := [.soLoad] }
     s.turns = .soLoad :: [] ∧ s.soack = true ∧ s.sosrBusy = false)
    ∧ (State.reset.soack = false ∨ State.reset.sosrBusy = true) := by decide

/-- SerialOutputShiftsOneBit: the bit before the last, the last with and without a waiting word, SOC changed in mid-word,
the idle pin for either reason. -/
theorem test_witness_SerialOutputShiftsOneBit :
    (let s : State :=
       { State.reset with soenLevel := false, sorq := true, sosrBusy := true, socnt := 14, turns := [.sckFall] }
     s.turns = .sckFall :: [] ∧ s.sorq = true ∧ s.soenLevel = false ∧ s.soSpoilt = false
      ∧ s.socnt + 1 < (if s.soc = true then 8 else 16))
    ∧ (let s : State :=
         { State.reset with
           soenLevel := false, sorq := true, sosrBusy := true, socnt := 15, soack := true, turns := [.sckFall] }
       s.turns = .sckFall :: [] ∧ s.sorq = true ∧ s.soenLevel = false ∧ s.soSpoilt = false
        ∧ (if s.soc = true then 8 else 16) ≤ s.socnt + 1 ∧ s.soack = true)
    ∧ (let s : State :=
         { State.reset with
           soenLevel := false, sorq := true, sosrBusy := true, socnt := 7, sr := 0x0200#16, turns := [.sckFall] }
       s.turns = .sckFall :: [] ∧ s.sorq = true ∧ s.soenLevel = false ∧ s.soSpoilt = false
        ∧ (if s.soc = true then 8 else 16) ≤ s.socnt + 1 ∧ s.soack = false)
    ∧ (let s : State := { busyState with turns := [.sckFall], soSpoilt := true, soenLevel := false }
       s.turns = .sckFall :: [] ∧ s.sorq = true ∧ s.soenLevel = false ∧ s.soSpoilt = true)
    ∧ (let s : State := { busyState with turns := [.sckFall] }
       s.turns = .sckFall :: [] ∧ s.soenLevel = true)
    ∧ (let s : State := { State.reset with turns := [.sckFall], soenLevel := false }
       s.turns = .sckFall :: [] ∧ s.sorq = false) := by decide

/-- SerialOutputSendsBitsInOrder: the last bit of each mode, falling edges alone and with the rising edges between;
the bit before the last with its rising edge. -/
theorem test_witness_SerialOutputSendsBitsInOrder :
    (let s : State :=
       { State.reset with soenLevel := false, sorq := true, sosrBusy := true, turns := List.replicate 16 .sckFall }
     s.sorq = true ∧ s.soenLevel = false ∧ s.soSpoilt = false ∧ s.socnt = 0 ∧ 15 < (if s.soc = true then 8 else 16)
      ∧ s.turns = List.replicate (15 + 1) .sckFall)
    ∧ (let s : State :=
         { State.reset with
           soenLevel := false, sorq := true, sosrBusy := true, sr := 0x0200#16, turns := serialOutTurns 7 }
       s.sorq = true ∧ s.soenLevel = false ∧ s.soSpoilt = false ∧ s.socnt = 0 ∧ 7 < (if s.soc = true then 8 else 16)
        ∧ s.turns = serialOutTurns 7)
    ∧ (let s : State :=
         { State.reset with
           soenLevel := false, sorq := true, sosrBusy := true, sosr := 0x4000#16,
           turns := serialOutTurns 14 ++ [.sckRise true false] }
       s.sorq = true ∧ s.soenLevel = false ∧ s.soSpoilt = false ∧ s.socnt = 0 ∧ 14 < (if s.soc = true then 8 else 16)
        ∧ s.turns = serialOutTurns 14 ++ [.sckRise true false] ∧ 14 + 1 < (if s.soc = true then 8 else 16)) := by decide

/-- SerialOutputIdlesHigh: an idle state and a busy one that satisfy the premise and go on; SOEN/ both ways; a change of
the pin. -/
theorem test_witness_SerialOutputIdlesHigh :
    (State.reset.PinIdlesHigh ∧ ∃ t, step State.reset = .next t)
    ∧ (let s : State :=
         { State.reset with
           soenLevel := false, sorq := true, sosrBusy := true, socnt := 15, soPin := false, turns := [.sckFall] }
       s.PinIdlesHigh ∧ ∃ t, step s = .next t)
    ∧ (let s : State := { busyState with soenLevel := false, soPin := false, turns := [.soen true] }
       s.turns = .soen true :: [] ∧ ∃ t, step s = .next t ∧ t.soPin ≠ s.soPin)
    ∧ (let s : State := { busyState with turns := [.soen false] }
       s.turns = .soen false :: []) :=
  ⟨⟨by decide, _, rfl⟩, ⟨by decide, _, rfl⟩, ⟨rfl, _, rfl, by decide⟩, rfl⟩

/-- StatementPartsMayStandInAnyOrder: two orders of one statement, and what they assemble to. -/
theorem test_witness_StatementPartsMayStandInAnyOrder :
    [OpPart.ret, .dph 1#3, .mov .b .k].Perm [.mov .b .k, .dph 1#3, .ret]
    ∧ assembleOp [.mov .b .k, .dph 1#3, .ret] = some (.rtNop ⟨.ram, .accA, .dpnop, 1#3, .rpnop, .k, .b⟩) := by decide

end Sys2Proof.Tests
end

/-! SUPPORT. What the multi-operation of an OP or RT leaves in each register the move and the pointer fields reach, said
once (R160, R169, R178, R192, R207); and after it the obligations of the move, settled from these laws. -/

namespace Sys2Proof.Machine

/-! ### The request for the master: RQM and DRQ (R46, R63, R178, R179, R192) -/

@[simp] theorem State.advance_rqm (s : State) : s.advance.rqm = s.rqm := rfl

/-- No destination but DR moves RQM: a write of SR keeps bit 15 (R193). -/
theorem destination_rqm (d : Dst) (v : Word) (start s : State) :
    (destination d v start s).rqm = if d = .dr ∧ start.dma = false then true else s.rqm := by
  by_cases hsr : d = .sr
  · simp [State.rqm, hsr, srKept, srWritable]
  · by_cases hdr : d = .dr ∧ start.dma = false <;> simp [State.rqm, hsr, hdr, rqmBit]

/-- No source but DR moves RQM. -/
theorem sourceEffect_rqm (r : Src) (start s : State) :
    (sourceEffect r start s).rqm = if r = .dr ∧ start.dma = false then true else s.rqm := by
  by_cases h : r = .dr ∧ start.dma = false <;> simp [State.rqm, h, rqmBit]

/-- The part of an OP or RT that reaches SR and DRQ is the move: nothing after the source's side effect does. -/
theorem multiOp_sr (fn : AluFn) (f : OpFields) (s : State) :
    (multiOp fn f s).sr = (sourceEffect f.src s (destination f.dst (source f.src s) s s)).sr := by
  simp only [multiOp, State.nextDraw_sr, pointerFields_sr, aluWrite_sr]

theorem multiOp_rqm (fn : AluFn) (f : OpFields) (s : State) :
    (multiOp fn f s).rqm = if (f.src = .dr ∨ f.dst = .dr) ∧ s.dma = false then true else s.rqm := by
  have hmove : (multiOp fn f s).rqm = (sourceEffect f.src s (destination f.dst (source f.src s) s s)).rqm :=
    congrArg (BitVec.getLsbD · 15) (multiOp_sr fn f s)
  rw [hmove, sourceEffect_rqm, destination_rqm]
  cases s.dma <;> simp [Bool.or_assoc]

theorem multiOp_drq (fn : AluFn) (f : OpFields) (s : State) :
    (multiOp fn f s).drq = if (f.src = .dr ∨ f.dst = .dr) ∧ s.dma = true then true else s.drq := by
  cases hdma : s.dma <;> simp [multiOp, hdma, Bool.or_assoc]

/-! ### The registers that only the move writes -/

@[simp] theorem multiOp_tr (fn : AluFn) (f : OpFields) (s : State) :
    (multiOp fn f s).tr = if f.dst = .tr then source f.src s else s.tr := by simp [multiOp]
@[simp] theorem multiOp_dr (fn : AluFn) (f : OpFields) (s : State) :
    (multiOp fn f s).dr = if f.dst = .dr then source f.src s else s.dr := by simp [multiOp]
@[simp] theorem multiOp_k (fn : AluFn) (f : OpFields) (s : State) :
    (multiOp fn f s).k = if f.dst = .k ∨ f.dst = .klr then source f.src s
      else if f.dst = .klm then s.ramWord (highRamAddr s.dp) else s.k := by simp [multiOp]
@[simp] theorem multiOp_l (fn : AluFn) (f : OpFields) (s : State) :
    (multiOp fn f s).l = if f.dst = .l ∨ f.dst = .klm then source f.src s
      else if f.dst = .klr then s.ro .lBus else s.l := by simp [multiOp]
@[simp] theorem multiOp_so (fn : AluFn) (f : OpFields) (s : State) :
    (multiOp fn f s).so = if f.dst = .sol then source f.src s
      else if f.dst = .som then bitrev16 (source f.src s) else s.so := by simp [multiOp]
@[simp] theorem multiOp_soack (fn : AluFn) (f : OpFields) (s : State) :
    (multiOp fn f s).soack = if f.dst = .sol ∨ f.dst = .som then true else s.soack := by simp [multiOp]

/-! ### The data pointer (R202 to R207) -/

@[simp] theorem multiOp_dp (fn : AluFn) (f : OpFields) (s : State) :
    (multiOp fn f s).dp = if f.dst = .dp then (source f.src s).extractLsb' 0 7 else dpStep f.dpl f.dphm s.dp := by
  by_cases h : f.dst = .dp <;> simp [multiOp, h]

/-- DPH takes the mask, whatever DPL does: no carry reaches it (R206, R207). -/
theorem dpStep_high (d : DplOp) (mask : BitVec 3) (dp : RamAddr) :
    (dpStep d mask dp).extractLsb' 4 3 = dp.extractLsb' 4 3 ^^^ mask :=
  BitVec.extractLsb'_append_eq_left

/-- DPL takes its own step, whatever the mask of DPH is (R207). -/
theorem dpStep_low (d : DplOp) (mask : BitVec 3) (dp : RamAddr) :
    (dpStep d mask dp).extractLsb' 0 4 = dplStep d (dp.extractLsb' 0 4) :=
  BitVec.extractLsb'_append_eq_right

theorem dplStep_dpinc_toNat (x : BitVec 4) : (dplStep .dpinc x).toNat = (x.toNat + 1) % 16 :=
  BitVec.toNat_add x 1#4

theorem dplStep_dpdec_toNat (x : BitVec 4) : (dplStep .dpdec x).toNat = (x.toNat + 15) % 16 := by
  rw [Nat.add_comm]; exact BitVec.toNat_sub x 1#4

/-! ### The accumulators: the move against the ALU (R160, R168, R169) -/

/-- The DST code that moves the bus to an accumulator (R187, R188). -/
def moveCode : Asl → Dst
  | .accA => .a
  | .accB => .b

theorem moveCode_ne {a b : Asl} (h : a ≠ b) : moveCode a ≠ moveCode b := by
  cases a <;> cases b <;> simp [moveCode] at h ⊢

/-- An active ALU: a function other than NOP, and the move does not go to its accumulator. -/
theorem aluActive_iff (fn : AluFn) (f : OpFields) :
    aluActive fn f = true ↔ fn ≠ .nop ∧ f.dst ≠ moveCode f.asl := by
  cases h : f.asl <;> simp [aluActive, moveWins, moveCode, h]

theorem multiOp_acc (fn : AluFn) (f : OpFields) (s : State) (a : Asl) :
    (multiOp fn f s).acc a = if aluActive fn f = true ∧ f.asl = a then (alu fn (aluInputs f s)).r
      else if f.dst = moveCode a then source f.src s else s.acc a := by
  cases a <;> simp [multiOp, moveCode] <;> rfl

theorem multiOp_flags (fn : AluFn) (f : OpFields) (s : State) (a : Asl) :
    (multiOp fn f s).flags a
      = if aluActive fn f = true ∧ f.asl = a then (alu fn (aluInputs f s)).flags else s.flags a := by
  cases a <;> simp [multiOp]

/-- The accumulator that is the move's destination takes the bus and keeps its flags, even if it is the ALU's. -/
theorem multiOp_movedTo (fn : AluFn) {f : OpFields} {a : Asl} (s : State) (h : f.dst = moveCode a) :
    (multiOp fn f s).acc a = source f.src s ∧ (multiOp fn f s).flags a = s.flags a := by
  have hidle : ¬(aluActive fn f = true ∧ f.asl = a) := by
    rintro ⟨hact, rfl⟩
    exact ((aluActive_iff fn f).mp hact).2 h
  rw [multiOp_acc, multiOp_flags, if_neg hidle, if_neg hidle, if_pos h]
  exact ⟨rfl, rfl⟩

/-- An accumulator that neither the ALU nor the move names keeps its value and its flags. -/
theorem multiOp_untouched (fn : AluFn) {f : OpFields} {a : Asl} (s : State) (hasl : f.asl ≠ a)
    (hdst : f.dst ≠ moveCode a) :
    (multiOp fn f s).acc a = s.acc a ∧ (multiOp fn f s).flags a = s.flags a := by
  simp [multiOp_acc, multiOp_flags, hasl, hdst]

/-- The ALU's accumulator, if the move does not go there, takes the function's result and flags; NOP's are the old. -/
theorem multiOp_computed (fn : AluFn) {f : OpFields} {a : Asl} (s : State) (hasl : f.asl = a)
    (hdst : f.dst ≠ moveCode a) :
    (multiOp fn f s).acc a = (alu fn (aluInputs f s)).r
      ∧ (multiOp fn f s).flags a = (alu fn (aluInputs f s)).flags := by
  subst hasl
  by_cases hnop : fn = .nop
  · subst hnop
    simp [multiOp_acc, multiOp_flags, aluActive_iff, hdst, alu, aluNop, aluInputs]
  · simp [multiOp_acc, multiOp_flags, aluActive_iff, hdst, hnop]

/-- R169 whole, for the accumulator `a` of the move and the other one `b`: the move wins at `a`; `b` is left alone when
the ALU works on `a`, and takes the ALU's result when the ALU works on `b`. -/
theorem multiOp_moveWins (fn : AluFn) {f : OpFields} (s : State) {a b : Asl} (hab : a ≠ b) (hdst : f.dst = moveCode a) :
    (multiOp fn f s).acc a = source f.src s ∧ (multiOp fn f s).flags a = s.flags a
      ∧ (f.asl = a → (multiOp fn f s).acc b = s.acc b ∧ (multiOp fn f s).flags b = s.flags b)
      ∧ (f.asl = b → (multiOp fn f s).acc b = (alu fn (aluInputs f s)).r
        ∧ (multiOp fn f s).flags b = (alu fn (aluInputs f s)).flags) := by
  obtain ⟨hacc, hflags⟩ := multiOp_movedTo fn s hdst
  have hother : f.dst ≠ moveCode b := hdst ▸ moveCode_ne hab
  exact ⟨hacc, hflags, fun hasl => multiOp_untouched fn s (hasl ▸ hab) hother,
    fun hasl => multiOp_computed fn s hasl hother⟩

end Sys2Proof.Machine

namespace Sys2Proof.Proofs

open Sys2Proof.Machine

/-- Settles O17, by the laws of RQM, DRQ, TR and DR after the multi-operation. -/
theorem drTransfersAskForTheMaster : Obligations.DrTransfersAskForTheMaster := by
  intro fn f s
  refine ⟨_, exec_opInstr fn f s, ?signalled, ?read, ?written, ?silent⟩
  case signalled =>
    intro hdr
    constructor <;> intro hdma <;> simp [multiOp_rqm, multiOp_drq, hdr, hdma]
  case read =>
    rintro (hsrc | hsrc) hdst <;> simp [hsrc, hdst, source]
  case written =>
    intro hdst
    refine ⟨by simp [hdst], ?_⟩
    rintro (hsrc | hsrc) <;> simp [hsrc, source]
  case silent =>
    intro hsrc hdst
    simp [multiOp_rqm, multiOp_drq, hsrc, hdst]

/-- Settles O18: @SOL loads the bus itself, @SOM the reversed bus, and neither looks at the serial mode. -/
theorem serialDestinationsLoadSoInSendingOrder : Obligations.SerialDestinationsLoadSoInSendingOrder := by
  intro fn f s hserial
  refine ⟨_, exec_opInstr fn f s, by simp [hserial], ?sol, ?som⟩
  case sol =>
    intro hdst
    simp [hdst]
  case som =>
    intro hdst i hi
    have hso : (multiOp fn f s).advance.so = bitrev16 (source f.src s) := by simp [hdst]
    rw [hso, bitrev16_getLsbD _ i hi]

/-- Settles O21, by the laws of the two halves of the pointer step. -/
theorem opUpdatesTheDataPointer : Obligations.OpUpdatesTheDataPointer := by
  intro fn f s
  refine ⟨_, exec_opInstr fn f s, ?loaded, ?stepped, ?oldPointer, ?newPointer⟩
  case loaded =>
    intro hdst
    simp [hdst]
  case stepped =>
    intro hdst
    have hdp : (multiOp fn f s).advance.dp = dpStep f.dpl f.dphm s.dp := by simp [hdst]
    have hlow : (s.dp.extractLsb' 0 4).toNat = s.dp.toNat % 16 := BitVec.extractLsb'_toNat ..
    rw [hdp, dpStep_high, dpStep_low]
    refine ⟨rfl, ?_⟩
    cases f.dpl with
    | dpnop => exact hlow
    | dpinc => rw [dplStep_dpinc_toNat, hlow]
    | dpdec => rw [dplStep_dpdec_toNat, hlow]
    | dpclr => rfl
  case oldPointer =>
    intro hdst
    constructor <;> intro hsrc <;> simp [hdst, hsrc, source]
  case newPointer =>
    intro g hdst hsrc
    exact ⟨_, exec_opInstr fn g _, by simp [hdst, hsrc, source]⟩

/-- Settles O27: each accumulator in turn is the move's, and the other is the ALU's or nobody's. -/
theorem moveToTheAluAccumulatorWins : Obligations.MoveToTheAluAccumulatorWins := by
  intro fn f s
  constructor <;> intro hdst
  · exact ⟨_, exec_opInstr fn f s, multiOp_moveWins fn s (a := .accA) (b := .accB) (by decide) hdst⟩
  · exact ⟨_, exec_opInstr fn f s, multiOp_moveWins fn s (a := .accB) (b := .accA) (by decide) hdst⟩

/-- Settles O15: the dedicated bus to K reads the high block at {1, DP[5:0]} while the bus goes to L. -/
theorem klmLoadsKFromHighRamAndLFromTheBus : Obligations.KlmLoadsKFromHighRamAndLFromTheBus := by
  intro fn f s hdst
  exact ⟨_, exec_opInstr fn f s, by simp [hdst, highRamAddr], by simp [hdst]⟩

end Sys2Proof.Proofs

/-! SUPPORT. The multiplier's output in integers, for the one pair of inputs whose doubled product does not fit in 32
bits and for every other pair (R231, R232), and what an instruction without an ALU function leaves of the flags; and
after it the obligation of the multiplier, settled from these laws. -/

namespace Sys2Proof.Machine

/-! ### The size of a product (R232) -/

/-- Only 8000H has the signed value -32768; every other word lies within 32767 of zero. -/
theorem abs_toInt_le_of_ne {k : Word} (hk : k ≠ 0x8000#16) : |k.toInt| ≤ 32767 := by
  have hne : k.toInt ≠ -32768 := fun h => hk (BitVec.toInt_inj.mp h)
  have hlow : -32768 ≤ k.toInt := k.le_toInt
  have hhigh : k.toInt ≤ 32767 := k.toInt_le
  rw [abs_le]
  omega

/-- One input other than 8000H keeps the signed product below 2^30, whatever the other input is. -/
theorem toInt_mul_toInt_lt {k : Word} (l : Word) (hk : k ≠ 0x8000#16) : k.toInt * l.toInt < 2 ^ 30 := by
  have hl : |l.toInt| ≤ 32768 := abs_le.mpr ⟨l.le_toInt, l.toInt_lt.le⟩
  calc k.toInt * l.toInt ≤ |k.toInt| * |l.toInt| := (le_abs_self _).trans (abs_mul _ _).le
    _ ≤ 32767 * 32768 := mul_le_mul (abs_toInt_le_of_ne hk) hl (abs_nonneg _) (by decide)
    _ < 2 ^ 30 := by decide

/-! ### The product (R231, R232) -/

/-- The pair that overflows: twice 2^30 does not fit, and the output is 80000000H. -/
theorem product_mostNegativePair : product 0x8000#16 0x8000#16 = 0x80000000#32 := by decide

/-- For every other pair twice the signed product fits in 32 bits. -/
theorem product_toInt {k l : Word} (h : ¬(k = 0x8000#16 ∧ l = 0x8000#16)) :
    (product k l).toInt = 2 * (k.toInt * l.toInt) := by
  have hlow : -2 ^ 30 ≤ k.toInt * l.toInt := BitVec.le_toInt_mul_toInt
  have hhigh : k.toInt * l.toInt < 2 ^ 30 := by
    rcases not_and_or.mp h with hk | hl
    · exact toInt_mul_toInt_lt l hk
    · rw [mul_comm]
      exact toInt_mul_toInt_lt k hl
  rw [product, BitVec.toInt_ofInt_eq_self (by decide) (by omega) (by omega), mul_comm]

/-- The doubling leaves the lowest bit of every product zero. -/
theorem product_lowest_bit (k l : Word) : (product k l).getLsbD 0 = false := by
  have heven : (product k l).toNat % 2 = 0 := by
    rw [product, BitVec.toNat_ofInt]
    omega
  simp [BitVec.getLsbD, Nat.testBit_zero, heven]

/-! ### Without an ALU function (R232) -/

/-- An OP or RT without an ALU function never makes the ALU active, so both flag registers stay. -/
theorem multiOp_nop_flags (f : OpFields) (s : State) (a : Asl) : (multiOp .nop f s).flags a = s.flags a := by
  have hidle : ¬aluActive .nop f = true := fun h => ((aluActive_iff .nop f).mp h).1 rfl
  simp [multiOp_flags, hidle]

end Sys2Proof.Machine

namespace Sys2Proof.Proofs

open Sys2Proof.Machine

/-- Settles O34, by the laws of the product; the flags by the law of NOP, which leaves the ALU idle. -/
theorem productIsExactButForTheMostNegativePair : Obligations.ProductIsExactButForTheMostNegativePair := by
  intro s
  refine ⟨?overflow, ?exact, ?even, fun f => ⟨_, exec_opInstr .nop f s,
    multiOp_nop_flags f s .accA, multiOp_nop_flags f s .accB⟩⟩
  case overflow =>
    rintro ⟨hk, hl⟩
    rw [State.m, State.n, hk, hl, product_mostNegativePair]
    decide
  case exact =>
    intro h
    rw [State.m_append_n, product_toInt h]
  case even =>
    simpa [State.n] using product_lowest_bit s.k s.l

end Sys2Proof.Proofs

/-! SUPPORT. What LDI leaves, in the terms of the claims: the words of the two dedicated buses, the pointers loaded from
a word, the data RAM after the move, and the notes that a write of SR sets (R193 to R201, R330 to R332); and after it the
obligation of LDI, settled from these laws. -/

namespace Sys2Proof.Machine

open Sys2Proof.Claims

/-! ### The program counter (R21, R331) -/

theorem nextPc_toNat (pc : ProgAddr) : (nextPc pc).toNat = (pc.toNat + 1) % 512 :=
  BitVec.toNat_add pc 1#9

/-- LDI is the move of the immediate and PC + 1. -/
theorem exec_ldi (d : Dst) (v : Word) (s : State) :
    exec (.ldi d v) s = .next (destination d v s s).nextDraw.advance := rfl

/-! ### The words of the dedicated buses and of @SOM (R31, R194 to R198) -/

theorem bitrev16_eq_reversed (v : Word) : bitrev16 v = reversed v := by
  apply BitVec.eq_of_getLsbD_eq
  intro i hi
  rw [bitrev16_getLsbD v i hi, reversed, BitVec.getLsbD_ofFnLE, dif_pos hi]

/-- Bit 6 set over DP[5:0] is the address 64 + DP mod 64. -/
theorem highRamAddr_toNat (dp : RamAddr) : (highRamAddr dp).toNat = 64 + dp.toNat % 64 := by
  have hlow : dp.toNat % 64 < 2 ^ 6 := Nat.mod_lt _ (by decide)
  rw [highRamAddr, BitVec.toNat_append, BitVec.extractLsb'_toNat, Nat.shiftRight_zero]
  exact (Nat.shiftLeft_add_eq_or_of_lt hlow 1).symm

theorem ramWord_highRamAddr (s : State) : s.ramWord (highRamAddr s.dp) = highWordForK s := by
  rw [State.ramWord, highRamAddr_toNat, highWordForK]

/-- A reserved address gives L the test pattern of its own bus, every other one the ROM's word (R28, R197). -/
theorem ro_lBus (s : State) : s.ro .lBus = romWordForL s := by
  have hro : s.ro .lBus = BitVec.ofNat 16 (8 * (s.dromWord .lBus).toNat) := by
    rw [← State.ro_toNat, BitVec.ofNat_toNat, BitVec.setWidth_eq]
  rw [hro, State.dromWord, romWordForL]
  simp only [dromReserved_iff]
  split <;> rfl

/-! ### The pointers loaded from the bus (R190, R191) -/

theorem destination_dp_toNat (d : Dst) (v : Word) (start s : State) :
    (destination d v start s).dp.toNat = if d = .dp then v.toNat % 128 else s.dp.toNat := by
  by_cases h : d = .dp <;> simp [h]

theorem destination_rp_toNat (d : Dst) (v : Word) (start s : State) :
    (destination d v start s).rp.toNat = if d = .rp then v.toNat % 512 else s.rp.toNat := by
  by_cases h : d = .rp <;> simp [h]

/-! ### The data RAM after the move (R201) -/

@[simp] theorem State.advance_ramWord (s : State) (a : RamAddr) : s.advance.ramWord a = s.ramWord a := rfl
@[simp] theorem State.nextDraw_ramWord (s : State) (a : RamAddr) : s.nextDraw.ramWord a = s.ramWord a := rfl

/-- Only @MEM stores, and only at the DP of the instruction's start. -/
theorem destination_ramWord {s : State} (h : Memory.wf Config.ramSize s.ram) (d : Dst) (v : Word) (start : State)
    (a : RamAddr) :
    (destination d v start s).ramWord a = if d = .mem ∧ a = start.dp then v else s.ramWord a := by
  by_cases hmem : d = .mem
  · simp only [hmem, true_and]
    exact State.ramWord_setRamWord h start.dp a v
  · simp [State.ramWord, hmem]

/-! ### The notes of transfers in flight (R368, R379, R390) -/

/-- No destination but SR sets the note of the input word. -/
theorem destination_siSpoilt_iff (d : Dst) (v : Word) (start s : State) :
    (destination d v start s).siSpoilt = true ↔ s.siSpoilt = true ∨ (d = .sr ∧ ChangesSicInMidWord v s) := by
  by_cases h : d = .sr <;> simp [h, ChangesSicInMidWord, ne_comm]

/-- No destination but SR sets the note of the output word. -/
theorem destination_soSpoilt_iff (d : Dst) (v : Word) (start s : State) :
    (destination d v start s).soSpoilt = true ↔ s.soSpoilt = true ∨ (d = .sr ∧ ChangesSocInMidWord v s) := by
  by_cases h : d = .sr <;> simp [h, ChangesSocInMidWord, ne_comm]

/-- No destination but SR sets the note of the host's transfer. -/
theorem destination_xferSpoilt_iff (d : Dst) (v : Word) (start s : State) :
    (destination d v start s).xferSpoilt = true ↔ s.xferSpoilt = true ∨ (d = .sr ∧ ChangesTransferMode v s) := by
  by_cases h : d = .sr <;> simp [h, ChangesTransferMode, ne_comm]

end Sys2Proof.Machine

namespace Sys2Proof.Proofs

open Sys2Proof.Machine

/-- Settles O40, register by register by the laws of the move: the draw index and PC are all that LDI writes beside. -/
theorem ldiLatchesTheImmediate : Obligations.LdiLatchesTheImmediate := by
  intro d v s hram
  refine ⟨_, exec_ldi d v s, ?pc, destination_accA .., destination_accB .., destination_flagA .., destination_flagB ..,
    destination_tr .., destination_dp_toNat .., destination_rp_toNat .., destination_dr .., destination_sr .., ?drq, ?so,
    ?soack, ?k, ?l, ?ram, ?frame⟩
  case pc => simp [nextPc_toNat]
  case drq => simp [Bool.decide_or]
  case so => simp [bitrev16_eq_reversed]
  case soack => simp [Bool.decide_or, Bool.or_assoc]
  case k => simp [ramWord_highRamAddr]
  case l => simp [ro_lBus]
  case ram =>
    intro a
    simp [destination_ramWord hram]
  case frame =>
    exact ⟨destination_irom .., destination_drom .., destination_stk .., destination_si .., destination_sisr ..,
      destination_sicnt .., destination_siack .., destination_sosr .., destination_socnt .., destination_sosrBusy ..,
      destination_sorq .., destination_soPin .., destination_intLevel .., destination_intPending ..,
      destination_turns .., destination_dBus .., destination_xferDir .., destination_soenLevel ..,
      destination_soLastBit .., destination_siSpoilt_iff .., destination_soSpoilt_iff .., destination_xferSpoilt_iff ..⟩

end Sys2Proof.Proofs

/-! SUPPORT. What each operation, each agent's action and each step leaves in EI, said once (R53, R193, R343 to R345,
R421); and after it the obligation of the interrupt mask, settled from these laws. -/

namespace Sys2Proof.Machine

open Sys2Proof.Claims

/-! ### The bus in the terms of the claims (R170 to R185) -/

/-- A reserved address gives the IDB the test pattern of its own port, every other one the ROM's word (R28, R176). -/
theorem ro_idb (s : State) : s.ro .idb = busValue .ro s := by
  have hro : s.ro .idb = BitVec.ofNat 16 (8 * (s.dromWord .idb).toNat) := by
    rw [← State.ro_toNat, BitVec.ofNat_toNat, BitVec.setWidth_eq]
  rw [hro, State.dromWord, busValue]
  simp only [dromReserved_iff]
  split <;> rfl

/-- Each source drives the word that the claims name for its code. -/
theorem source_eq_busValue (r : Src) (s : State) : source r s = busValue r s := by
  cases r
  case dp => exact (BitVec.ofNat_toNat 16 s.dp).symm
  case rp => exact (BitVec.ofNat_toNat 16 s.rp).symm
  case ro => exact ro_idb s
  case sil => rw [source, silWord, busValue, bitrev16_eq_reversed, reversed]
  all_goals rfl

/-! ### EI after an instruction (R53, R193, R333) -/

/-- Only @SR writes EI: the request that @DR makes is bit 15. -/
theorem destination_ei (d : Dst) (v : Word) (start s : State) :
    (destination d v start s).ei = if d = .sr then v.getLsbD 7 else s.ei := by
  by_cases hsr : d = .sr
  · simp [State.ei, hsr, srKept, srWritable]
  · by_cases hdr : d = .dr ∧ start.dma = false <;> simp [State.ei, hsr, hdr, rqmBit]

theorem sourceEffect_ei (r : Src) (start s : State) : (sourceEffect r start s).ei = s.ei := by
  by_cases h : r = .dr ∧ start.dma = false <;> simp [State.ei, h, rqmBit]

theorem multiOp_ei (fn : AluFn) (f : OpFields) (s : State) :
    (multiOp fn f s).ei = if f.dst = .sr then (busValue f.src s).getLsbD 7 else s.ei := by
  have hmove : (multiOp fn f s).ei = (sourceEffect f.src s (destination f.dst (source f.src s) s s)).ei :=
    congrArg (BitVec.getLsbD · 7) (multiOp_sr fn f s)
  rw [hmove, sourceEffect_ei, destination_ei, source_eq_busValue]

/-- An OP or RT leaves EI alone, or writes SR and puts bit 7 of the bus there. -/
theorem multiOp_ei_cases (fn : AluFn) {f : OpFields} {i : Instr} (s : State)
    (hi : i = opInstr fn f ∨ i = rtInstr fn f) :
    (multiOp fn f s).ei = s.ei ∨ ∃ v, SrWriteValue i s v ∧ v.getLsbD 7 = (multiOp fn f s).ei := by
  rw [multiOp_ei]
  by_cases hdst : f.dst = .sr
  · exact .inr ⟨_, .inl ⟨fn, f, hi, hdst, rfl⟩, (if_pos hdst).symm⟩
  · exact .inl (if_neg hdst)

/-- An instruction leaves EI alone, or writes SR and puts bit 7 of the value there. -/
theorem exec_ei_cases {i : Instr} {s t : State} (h : exec i s = .next t) :
    t.ei = s.ei ∨ ∃ v, SrWriteValue i s v ∧ v.getLsbD 7 = t.ei := by
  rcases exec_next h with ⟨fn, f, hi, rfl⟩ | ⟨fn, f, _, _, hi, -, rfl⟩ | ⟨target, rfl⟩ | ⟨na, -, rfl⟩ | ⟨d, v, rfl, rfl⟩
  case inl => exact multiOp_ei_cases fn s (.inl hi)
  case inr.inl => exact multiOp_ei_cases fn s (.inr hi)
  case inr.inr.inl => exact .inl rfl
  case inr.inr.inr.inl => exact .inl rfl
  case inr.inr.inr.inr =>
    have hei : (destination d v s s).nextDraw.advance.ei = if d = .sr then v.getLsbD 7 else s.ei :=
      destination_ei d v s s
    rw [hei]
    by_cases hd : d = .sr
    · exact .inr ⟨v, .inr (by rw [hd]), (if_pos hd).symm⟩
    · exact .inl (if_neg hd)

/-! ### EI after the core's step (R345) -/

theorem State.interruptEntry_ei (s : State) : s.interruptEntry.ei = false := by
  simp [State.ei, eiBit]

/-- The core runs an instruction that writes SR, with `b` as bit 7 of the value (R193, R333). -/
def WritesEi (s : State) (b : Bool) : Prop :=
  s.intPending = false ∧ ∃ i v, decode s.fetch = .instr i ∧ SrWriteValue i s v ∧ v.getLsbD 7 = b

/-- The core's step leaves EI alone, clears it by the entry, or writes it with SR. -/
theorem coreStep_ei_cases {s t : State} (h : coreStep s = .next t) :
    t.ei = s.ei ∨ (s.intPending = true ∧ t.ei = false) ∨ WritesEi s t.ei := by
  rcases coreStep_next h with ⟨hpending, rfl⟩ | ⟨hidle, i, hdecode, hexec⟩
  · exact .inr (.inl ⟨hpending, s.interruptEntry_ei⟩)
  · rcases exec_ei_cases hexec with hkept | ⟨v, hwrite, hbit⟩
    · exact .inl hkept
    · exact .inr (.inr ⟨hidle, i, v, hdecode, hwrite, hbit⟩)

/-! ### EI after the outside agents' actions (R344) -/

theorem State.finishTransfer_ei (s : State) : s.finishTransfer.ei = s.ei := by
  cases hdma : s.dma <;> simp [State.ei, hdma, rqmBit]

/-- A host transfer moves RQM and DRS, bits 15 and 12, and no other bit of SR. -/
theorem State.byteDone_ei (s : State) (d : XferDir) : (s.byteDone d).ei = s.ei := by
  rcases s.byteDone_cases d with ⟨-, h⟩ | ⟨-, -, h⟩ | ⟨-, -, h⟩ <;> rw [h]
  · exact s.finishTransfer_ei
  · rw [State.secondByteDone, State.finishTransfer_ei]
    simp [State.ei, drsBit]
  · simp [State.firstByteDone, State.ei, drsBit]

theorem hostCycle_ei {c : BusCycle} {s t : State} (h : hostCycle c s = .next t) : t.ei = s.ei := by
  rcases hostCycle_next h with ⟨-, rfl⟩ | ⟨-, -, rfl⟩ | ⟨-, -, rfl⟩ | ⟨-, rfl⟩
  · rfl
  · exact State.byteDone_ei ..
  · exact State.byteDone_ei ..
  · rfl

theorem siBit_ei (b : Bool) (s : State) : (siBit b s).ei = s.ei := by
  unfold siBit
  split <;> rfl

theorem State.endOfWord_ei (s : State) : s.endOfWord.ei = s.ei := by
  unfold State.endOfWord
  split <;> rfl

theorem soBit_ei (s : State) : (soBit s).ei = s.ei := by
  unfold soBit
  split
  · rfl
  · exact State.endOfWord_ei _

theorem rst_ei (s : State) : (rst s).ei = false := by simp [State.ei]

/-- Of the agents' moves only the core's and a reset reach EI. -/
theorem takeTurn_ei {turn : Turn} {s t : State} (h : takeTurn turn s = .next t) (hcore : turn ≠ .core)
    (hrst : turn ≠ .rst) : t.ei = s.ei := by
  cases turn with
  | core => exact absurd rfl hcore
  | rst => exact absurd rfl hrst
  | intRise => obtain ⟨-, rfl⟩ := intRise_next h; rfl
  | intFall => obtain ⟨-, rfl⟩ := intFall_next h; rfl
  | bus c => exact hostCycle_ei h
  | sckRise sien si =>
    rcases sckRise_next h with ⟨-, rfl⟩ | ⟨-, -, rfl⟩
    · rfl
    · exact siBit_ei si s.releasePin
  | sckFall =>
    rcases sckFall_next h with ⟨-, -, -, rfl⟩ | ⟨-, rfl⟩
    · exact soBit_ei s
    · rfl
  | soen level => cases h; rfl
  | soLoad => obtain ⟨-, -, rfl⟩ := soLoad_next h; rfl

/-- From a low pin the edge is taken, and it is pending if one was or if EI = 1 (R343). -/
theorem intRise_of_low {s : State} (h : s.intLevel = false) :
    intRise s = .next { s with intLevel := true, intPending := s.intPending || s.ei } := by
  simp [intRise, h]

/-! ### EI after a step -/

/-- What is fetched and put on the bus does not depend on the order of moves. -/
theorem WritesEi_turns {s : State} {b : Bool} (ts : List Turn) : WritesEi { s with turns := ts } b ↔ WritesEi s b :=
  Iff.rfl

/-- A step is the core's, its turn listed or not, or the first listed turn's of another agent. -/
theorem step_core_or_agent (s : State) :
    (CoreMoves s ∧ ∃ ts, step s = coreStep { s with turns := ts })
    ∨ ∃ turn rest, turn ≠ .core ∧ s.turns = turn :: rest ∧ step s = takeTurn turn { s with turns := rest } := by
  rcases step_cases s with ⟨hturns, hstep⟩ | ⟨turn, rest, hturns, hstep⟩
  · exact .inl ⟨.inl hturns, s.turns, hstep⟩
  · by_cases hcore : turn = .core
    · subst hcore
      exact .inl ⟨.inr ⟨rest, hturns⟩, rest, hstep⟩
    · exact .inr ⟨turn, rest, hcore, hturns, hstep⟩

/-- A step leaves EI alone, or it is the core's entry, the core's write of SR, or a reset (R344). -/
theorem step_ei_cases {s t : State} (h : step s = .next t) :
    t.ei = s.ei ∨ (CoreMoves s ∧ s.intPending = true ∧ t.ei = false) ∨ (CoreMoves s ∧ WritesEi s t.ei)
      ∨ ((∃ rest, s.turns = .rst :: rest) ∧ t.ei = false) := by
  rcases step_core_or_agent s with ⟨hmoves, ts, hstep⟩ | ⟨turn, rest, hcore, hturns, hstep⟩ <;> rw [hstep] at h
  · rcases coreStep_ei_cases h with hkept | hentry | hwrite
    · exact .inl hkept
    · exact .inr (.inl ⟨hmoves, hentry⟩)
    · exact .inr (.inr (.inl ⟨hmoves, (WritesEi_turns ts).mp hwrite⟩))
  · by_cases hrst : turn = .rst
    · subst hrst
      cases h
      exact .inr (.inr (.inr ⟨⟨rest, hturns⟩, rst_ei _⟩))
    · have hkept := takeTurn_ei h hcore hrst
      exact .inl hkept

end Sys2Proof.Machine

namespace Sys2Proof.Proofs

open Sys2Proof.Machine

/-- Settles O43, by the law of EI after a step: of its four cases the entry and the reset clear EI, and a write of SR
sets or clears it by bit 7 of the value. -/
theorem enableInterruptChangesOnlyAsListed : Obligations.EnableInterruptChangesOnlyAsListed := by
  refine ⟨rfl, ?changes, ?edge⟩
  case changes =>
    intro s t hstep hne
    rcases step_ei_cases hstep with hkept | ⟨hmoves, hpending, hclear⟩ | ⟨hmoves, hidle, hwrite⟩ | ⟨hrst, hclear⟩
    · exact absurd hkept.symm hne
    · exact ⟨fun hset => absurd hset (by simp [hclear]), fun _ => .inr (.inl ⟨hmoves, hpending⟩)⟩
    · exact ⟨fun hset => ⟨hmoves, hidle, hset ▸ hwrite⟩, fun hclear => .inl ⟨hmoves, hidle, hclear ▸ hwrite⟩⟩
    · exact ⟨fun hset => absurd hset (by simp [hclear]), fun _ => .inr (.inr hrst)⟩
  case edge =>
    intro s hidle hlow
    exact ⟨_, intRise_of_low hlow, by simp [hidle]⟩

end Sys2Proof.Proofs

/-! SUPPORT. What the decoder and the encoder do, said once: the field codes are inverse to each other, the decoder by
the OP and BRCH fields of a word, the fields of an encoded word, and a word from its fields (R120 to R138); and after it
the obligations of the encoding, settled from these laws. -/

namespace Sys2Proof

/-! ### The field codes (R126 to R135) -/

@[simp] theorem PSel.ofCode_code (p : PSel) : PSel.ofCode p.code = p := by cases p <;> rfl
@[simp] theorem AluFn.ofCode_code (fn : AluFn) : AluFn.ofCode fn.code = fn := by cases fn <;> rfl
@[simp] theorem Asl.ofCode_code (a : Asl) : Asl.ofCode a.code = a := by cases a <;> rfl
@[simp] theorem DplOp.ofCode_code (d : DplOp) : DplOp.ofCode d.code = d := by cases d <;> rfl
@[simp] theorem RpOp.ofCode_code (r : RpOp) : RpOp.ofCode r.code = r := by cases r <;> rfl
@[simp] theorem Src.ofCode_code (r : Src) : Src.ofCode r.code = r := by cases r <;> rfl
@[simp] theorem Dst.ofCode_code (d : Dst) : Dst.ofCode d.code = d := by cases d <;> rfl
@[simp] theorem Cond.ofCode_code (c : Cond) : Cond.ofCode c.code = c := by cases c <;> rfl

@[simp] theorem PSel.code_ofCode (c : BitVec 2) : (PSel.ofCode c).code = c := by revert c; decide
@[simp] theorem AluFn.code_ofCode (c : BitVec 4) : (AluFn.ofCode c).code = c := by revert c; decide
@[simp] theorem Asl.code_ofCode (c : BitVec 1) : (Asl.ofCode c).code = c := by revert c; decide
@[simp] theorem DplOp.code_ofCode (c : BitVec 2) : (DplOp.ofCode c).code = c := by revert c; decide
@[simp] theorem RpOp.code_ofCode (c : BitVec 1) : (RpOp.ofCode c).code = c := by revert c; decide
@[simp] theorem Src.code_ofCode (c : BitVec 4) : (Src.ofCode c).code = c := by revert c; decide
@[simp] theorem Dst.code_ofCode (c : BitVec 4) : (Dst.ofCode c).code = c := by revert c; decide
@[simp] theorem Cond.code_ofCode (c : BitVec 5) : (Cond.ofCode c).code = c := by revert c; decide

/-! ### The words of the rows that share a format -/

theorem encode_opInstr (fn : AluFn) (f : OpFields) : encode (opInstr fn f) = encodeOpRt 0b00#2 fn f := by
  cases fn <;> rfl

theorem encode_rtInstr (fn : AluFn) (f : OpFields) : encode (rtInstr fn f) = encodeOpRt 0b01#2 fn f := by
  cases fn <;> rfl

theorem encode_condJump (c : Cond) (na : ProgAddr) : encode (condJump c na) = encodeJp 0b010#3 c.code na := by
  cases c <;> rfl

/-! ### The decoder, by the OP field and BRCH (R120, R134, R136, R137) -/

/-- A known field gives the bits of the word that it covers. -/
theorem getLsbD_of_field {w : InstrWord} {start len : Nat} {c : BitVec len} (h : w.extractLsb' start len = c) (i : Nat)
    (hi : i < len) : w.getLsbD (start + i) = c.getLsbD i := by
  rw [← h, BitVec.getLsbD_extractLsb']
  simp [hi]

theorem decode_op {w : InstrWord} (h : w.extractLsb' 21 2 = 0b00#2) :
    decode w = .instr (opInstr (aluField w) (opFields w)) := by
  have h22 : w.getLsbD 22 = false := getLsbD_of_field h 1 (by decide)
  have h21 : w.getLsbD 21 = false := getLsbD_of_field h 0 (by decide)
  simp only [decode, h22, h21]

theorem decode_rt {w : InstrWord} (h : w.extractLsb' 21 2 = 0b01#2) :
    decode w = .instr (rtInstr (aluField w) (opFields w)) := by
  have h22 : w.getLsbD 22 = false := getLsbD_of_field h 1 (by decide)
  have h21 : w.getLsbD 21 = true := getLsbD_of_field h 0 (by decide)
  simp only [decode, h22, h21]

theorem decode_jp {w : InstrWord} (h : w.extractLsb' 21 2 = 0b10#2) : decode w = decodeJp w := by
  have h22 : w.getLsbD 22 = true := getLsbD_of_field h 1 (by decide)
  have h21 : w.getLsbD 21 = false := getLsbD_of_field h 0 (by decide)
  simp only [decode, h22, h21]

theorem decode_ldi {w : InstrWord} (h : w.extractLsb' 21 2 = 0b11#2) :
    decode w = .instr (.ldi (Dst.ofCode (w.extractLsb' 0 4)) (w.extractLsb' 5 16)) := by
  have h22 : w.getLsbD 22 = true := getLsbD_of_field h 1 (by decide)
  have h21 : w.getLsbD 21 = true := getLsbD_of_field h 0 (by decide)
  simp only [decode, h22, h21]

/-- What a JP word decodes to, of its BRCH, CND and NA fields. -/
def jpOfFields (brch : BitVec 3) (cnd : BitVec 5) (na : ProgAddr) : Decoded :=
  if brch = 0b100#3 then .instr (.jmp na)
  else if brch = 0b101#3 then .instr (.call na)
  else if brch = 0b010#3 then .instr (condJump (Cond.ofCode cnd) na)
  else .rejected .undefinedBranch

theorem opField_cases (op : BitVec 2) : op = 0b00#2 ∨ op = 0b01#2 ∨ op = 0b10#2 ∨ op = 0b11#2 := by
  revert op; decide

theorem brchField_cases (brch : BitVec 3) :
    brch = 0b000#3 ∨ brch = 0b001#3 ∨ brch = 0b010#3 ∨ brch = 0b011#3
      ∨ brch = 0b100#3 ∨ brch = 0b101#3 ∨ brch = 0b110#3 ∨ brch = 0b111#3 := by
  revert brch; decide

theorem decodeJp_eq (w : InstrWord) :
    decodeJp w = jpOfFields (w.extractLsb' 18 3) (w.extractLsb' 13 5) (naField w) := by
  generalize hb : w.extractLsb' 18 3 = brch
  have h20 : w.getLsbD 20 = brch.getLsbD 2 := getLsbD_of_field hb 2 (by decide)
  have h19 : w.getLsbD 19 = brch.getLsbD 1 := getLsbD_of_field hb 1 (by decide)
  have h18 : w.getLsbD 18 = brch.getLsbD 0 := getLsbD_of_field hb 0 (by decide)
  simp only [decodeJp, h20, h19, h18]
  rcases brchField_cases brch with h | h | h | h | h | h | h | h <;> rw [h] <;> rfl

/-- The decoder rejects exactly the JP words whose BRCH is none of the three defined codes (R137). -/
theorem decode_rejected_iff (w : InstrWord) :
    decode w = .rejected .undefinedBranch ↔
      w.extractLsb' 21 2 = 0b10#2 ∧ w.extractLsb' 18 3 ≠ 0b100#3 ∧ w.extractLsb' 18 3 ≠ 0b101#3
        ∧ w.extractLsb' 18 3 ≠ 0b010#3 := by
  rcases opField_cases (w.extractLsb' 21 2) with h | h | h | h
  · simp [decode_op h, h]
  · simp [decode_rt h, h]
  · rw [decode_jp h, decodeJp_eq, jpOfFields, h]
    split_ifs with hjmp hcall hcond <;> simp [*]
  · simp [decode_ldi h, h]

/-! ### The fields of a word built of them (R121 to R123) -/

/-- A JP word with any value in the bits that the decoder ignores. -/
def jpWord (brch : BitVec 3) (cnd : BitVec 5) (na : ProgAddr) (low : BitVec 4) : InstrWord :=
  0b10#2 ++ brch ++ cnd ++ na ++ low

/-- An LDI word with any value in the bit that the decoder ignores. -/
def ldiWord (d : Dst) (imm : Word) (x : BitVec 1) : InstrWord := 0b11#2 ++ imm ++ x ++ d.code

/-- Each field of an OP/RT word beside its OP code holds the code that was put there. -/
theorem encodeOpRt_codes (op : BitVec 2) (fn : AluFn) (f : OpFields) :
    (encodeOpRt op fn f).extractLsb' 19 2 = f.psel.code ∧ (encodeOpRt op fn f).extractLsb' 15 4 = fn.code
      ∧ (encodeOpRt op fn f).extractLsb' 14 1 = f.asl.code ∧ (encodeOpRt op fn f).extractLsb' 12 2 = f.dpl.code
      ∧ (encodeOpRt op fn f).extractLsb' 9 3 = f.dphm ∧ (encodeOpRt op fn f).extractLsb' 8 1 = f.rpdcr.code
      ∧ (encodeOpRt op fn f).extractLsb' 4 4 = f.src.code ∧ (encodeOpRt op fn f).extractLsb' 0 4 = f.dst.code := by
  refine ⟨?_, ?_, ?_, ?_, ?_, ?_, ?_, ?_⟩
  all_goals
    apply BitVec.eq_of_getLsbD_eq
    intro i hi
    simp only [encodeOpRt, BitVec.getLsbD_append, BitVec.getLsbD_extractLsb']
    interval_cases i <;> simp

theorem aluField_encodeOpRt (op : BitVec 2) (fn : AluFn) (f : OpFields) : aluField (encodeOpRt op fn f) = fn := by
  obtain ⟨-, hfn, -⟩ := encodeOpRt_codes op fn f
  rw [aluField, hfn, AluFn.ofCode_code]

theorem opFields_encodeOpRt (op : BitVec 2) (fn : AluFn) (f : OpFields) : opFields (encodeOpRt op fn f) = f := by
  obtain ⟨hpsel, -, hasl, hdpl, hdphm, hrpdcr, hsrc, hdst⟩ := encodeOpRt_codes op fn f
  simp [opFields, hpsel, hasl, hdpl, hdphm, hrpdcr, hsrc, hdst]

theorem jpWord_fields (brch : BitVec 3) (cnd : BitVec 5) (na : ProgAddr) (low : BitVec 4) :
    (jpWord brch cnd na low).extractLsb' 21 2 = 0b10#2 ∧ (jpWord brch cnd na low).extractLsb' 18 3 = brch
      ∧ (jpWord brch cnd na low).extractLsb' 13 5 = cnd ∧ naField (jpWord brch cnd na low) = na := by
  refine ⟨?_, ?_, ?_, ?_⟩
  all_goals
    apply BitVec.eq_of_getLsbD_eq
    intro i hi
    simp only [naField, jpWord, BitVec.getLsbD_append, BitVec.getLsbD_extractLsb']
    interval_cases i <;> simp

theorem ldiWord_fields (d : Dst) (imm : Word) (x : BitVec 1) :
    (ldiWord d imm x).extractLsb' 21 2 = 0b11#2 ∧ (ldiWord d imm x).extractLsb' 5 16 = imm
      ∧ (ldiWord d imm x).extractLsb' 0 4 = d.code := by
  refine ⟨?_, ?_, ?_⟩
  all_goals
    apply BitVec.eq_of_getLsbD_eq
    intro i hi
    simp only [ldiWord, BitVec.getLsbD_append, BitVec.getLsbD_extractLsb']
    interval_cases i <;> simp

/-! ### What the words decode to, whatever their ignored bits hold (R121 to R123, R138) -/

theorem decode_opWord (fn : AluFn) (f : OpFields) : decode (encodeOpRt 0b00#2 fn f) = .instr (opInstr fn f) := by
  rw [decode_op (encodeOpRt_op ..), aluField_encodeOpRt, opFields_encodeOpRt]

theorem decode_rtWord (fn : AluFn) (f : OpFields) : decode (encodeOpRt 0b01#2 fn f) = .instr (rtInstr fn f) := by
  rw [decode_rt (encodeOpRt_op ..), aluField_encodeOpRt, opFields_encodeOpRt]

theorem decode_jpWord (brch : BitVec 3) (cnd : BitVec 5) (na : ProgAddr) (low : BitVec 4) :
    decode (jpWord brch cnd na low) = jpOfFields brch cnd na := by
  obtain ⟨hop, hbrch, hcnd, hna⟩ := jpWord_fields brch cnd na low
  rw [decode_jp hop, decodeJp_eq, hbrch, hcnd, hna]

theorem decode_condWord (c : Cond) (na : ProgAddr) (low : BitVec 4) :
    decode (jpWord 0b010#3 c.code na low) = .instr (condJump c na) := by
  simp [decode_jpWord, jpOfFields]

theorem decode_ldiWord (d : Dst) (imm : Word) (x : BitVec 1) : decode (ldiWord d imm x) = .instr (.ldi d imm) := by
  obtain ⟨hop, himm, hdst⟩ := ldiWord_fields d imm x
  rw [decode_ldi hop, himm, hdst, Dst.ofCode_code]

/-! ### A word from its fields (R121 to R123) -/

theorem encodeOpRt_of_fields (w : InstrWord) : encodeOpRt (w.extractLsb' 21 2) (aluField w) (opFields w) = w := by
  simp only [encodeOpRt, aluField, opFields, AluFn.code_ofCode, PSel.code_ofCode, Asl.code_ofCode, DplOp.code_ofCode,
    RpOp.code_ofCode, Src.code_ofCode, Dst.code_ofCode]
  apply BitVec.eq_of_getLsbD_eq
  intro i hi
  simp only [BitVec.getLsbD_append, BitVec.getLsbD_extractLsb']
  interval_cases i <;> rfl

theorem jpWord_of_fields {w : InstrWord} (h : w.extractLsb' 21 2 = 0b10#2) :
    jpWord (w.extractLsb' 18 3) (w.extractLsb' 13 5) (naField w) (w.extractLsb' 0 4) = w := by
  rw [jpWord, naField, ← h]
  apply BitVec.eq_of_getLsbD_eq
  intro i hi
  simp only [BitVec.getLsbD_append, BitVec.getLsbD_extractLsb']
  interval_cases i <;> rfl

theorem ldiWord_of_fields {w : InstrWord} (h : w.extractLsb' 21 2 = 0b11#2) :
    ldiWord (Dst.ofCode (w.extractLsb' 0 4)) (w.extractLsb' 5 16) (w.extractLsb' 4 1) = w := by
  rw [ldiWord, Dst.code_ofCode, ← h]
  apply BitVec.eq_of_getLsbD_eq
  intro i hi
  simp only [BitVec.getLsbD_append, BitVec.getLsbD_extractLsb']
  interval_cases i <;> rfl

/-! ### Well-formed words (R137, R138) -/

/-- In a well-formed JP word the ignored bits are zero. -/
theorem wellFormedWord_jp {w : InstrWord} (h : w.extractLsb' 21 2 = 0b10#2) (hw : wellFormedWord w = true) :
    w.extractLsb' 0 4 = 0#4 ∧ (w.extractLsb' 18 3 = 0b010#3 ∨ w.extractLsb' 13 5 = 0#5) := by
  simp only [wellFormedWord, isJpWord, isLdiWord, jpUnusedZero, jpCondZero, h] at hw
  simp_all

theorem wellFormedWord_ldi {w : InstrWord} (h : w.extractLsb' 21 2 = 0b11#2) (hw : wellFormedWord w = true) :
    w.extractLsb' 4 1 = 0#1 := by
  simpa [wellFormedWord, isJpWord, isLdiWord, ldiUnusedZero, h] using hw

/-- A well-formed JP word is the encoding of the jump it decodes to. -/
theorem encode_of_decode_jp {w : InstrWord} {i : Instr} (h : w.extractLsb' 21 2 = 0b10#2) (hw : wellFormedWord w = true)
    (hi : decode w = .instr i) : encode i = w := by
  obtain ⟨hlow, hcnd⟩ := wellFormedWord_jp h hw
  have hword := jpWord_of_fields h
  rw [hlow] at hword
  rw [decode_jp h, decodeJp_eq, jpOfFields] at hi
  split_ifs at hi with hjmp hcall hcond <;> cases hi
  · rw [hjmp, hcnd.resolve_left (by simp [hjmp])] at hword
    exact hword
  · rw [hcall, hcnd.resolve_left (by simp [hcall])] at hword
    exact hword
  · rw [encode_condJump, Cond.code_ofCode]
    rw [hcond] at hword
    exact hword

end Sys2Proof

namespace Sys2Proof.Proofs

open Sys2Proof

/-- Settles O1, by the shapes of the instructions: each shape's word has that shape's fields. -/
theorem decodeOfEncodeIsTheInstruction : Obligations.DecodeOfEncodeIsTheInstruction := by
  intro i
  rcases Machine.Instr_shape i with ⟨fn, f, rfl⟩ | ⟨fn, f, rfl⟩ | ⟨na, rfl⟩ | ⟨na, rfl⟩ | ⟨c, na, rfl⟩ | ⟨d, v, rfl⟩
  · rw [encode_opInstr, decode_opWord]
  · rw [encode_rtInstr, decode_rtWord]
  · exact decode_jpWord 0b100#3 0#5 na 0#4
  · exact decode_jpWord 0b101#3 0#5 na 0#4
  · rw [encode_condJump]
    exact decode_condWord c na 0#4
  · exact decode_ldiWord d v 0#1

/-- Settles O2, by the four formats: the word is rebuilt from its fields, the ignored ones being zero. -/
theorem wellFormedWordIsEncodeOfItsDecode : Obligations.WellFormedWordIsEncodeOfItsDecode := by
  intro w i hi hw
  rcases opField_cases (w.extractLsb' 21 2) with h | h | h | h
  · rw [decode_op h] at hi
    cases hi
    rw [encode_opInstr, ← h, encodeOpRt_of_fields]
  · rw [decode_rt h] at hi
    cases hi
    rw [encode_rtInstr, ← h, encodeOpRt_of_fields]
  · exact encode_of_decode_jp h hw hi
  · rw [decode_ldi h] at hi
    cases hi
    have hword := ldiWord_of_fields h
    rw [wellFormedWord_ldi h hw] at hword
    exact hword

/-- Settles O3: the laws of the JP and LDI words hold for every value of the ignored bits. -/
theorem ignoredBitsDoNotChangeDecoding : Obligations.IgnoredBitsDoNotChangeDecoding :=
  ⟨fun na cnd low => ⟨decode_jpWord 0b100#3 cnd na low, decode_jpWord 0b101#3 cnd na low⟩, decode_condWord,
    decode_ldiWord⟩

/-- Settles O5. -/
theorem wordsOfTheSpecDecode : Obligations.WordsOfTheSpecDecode := by
  unfold Obligations.WordsOfTheSpecDecode
  decide

end Sys2Proof.Proofs

/-! SUPPORT. How a step comes to an instruction and how an instruction can end, said once: the core's step by what it
fetches, an instruction's next state or its one fault, the return, the jumps by their conditions (R162, R280 to R317,
R341, R345); and after it the obligations of the core's step, the returns, the jumps and the interrupt. -/

namespace Sys2Proof.Machine

open Sys2Proof.Claims

/-! ### The step, by the list of turns -/

theorem step_of_unlisted {s : State} (h : s.turns = []) : step s = coreStep s := by simp [step, h]

theorem step_of_listed {s : State} {turn : Turn} {rest : List Turn} (h : s.turns = turn :: rest) :
    step s = takeTurn turn { s with turns := rest } := by simp [step, h]

theorem step_of_coreMoves {s : State} (h : CoreMoves s) : ∃ ts, step s = coreStep { s with turns := ts } := by
  rcases h with hturns | ⟨rest, hturns⟩
  · exact ⟨s.turns, step_of_unlisted hturns⟩
  · exact ⟨rest, step_of_listed hturns⟩

/-! ### The core's step, by what it fetches (R91, R137, R345) -/

theorem coreStep_of_pending {s : State} (h : s.intPending = true) : coreStep s = .next s.interruptEntry := by
  simp [coreStep, h]

theorem coreStep_of_instr {s : State} {i : Instr} (hidle : s.intPending = false) (hi : decode s.fetch = .instr i) :
    coreStep s = exec i s := by simp [coreStep, runInstruction, hidle, hi]

theorem coreStep_of_rejected {s : State} (hidle : s.intPending = false)
    (hr : decode s.fetch = .rejected .undefinedBranch) : coreStep s = .fault .undefinedBranch := by
  simp [coreStep, runInstruction, hidle, hr]

/-! ### How an instruction can end (R340, R341) -/

/-- Every instruction answers a next state, but for an RT on an empty stack, which is the fault StackUnderflow. -/
theorem exec_next_or_underflow (i : Instr) (s : State) :
    (∃ t, exec i s = .next t)
    ∨ ((∃ fn f, i = rtInstr fn f) ∧ s.stk = [] ∧ exec i s = .fault .stackUnderflow) := by
  rcases Instr_shape i with ⟨fn, f, rfl⟩ | ⟨fn, f, rfl⟩ | ⟨na, rfl⟩ | ⟨na, rfl⟩ | ⟨c, na, rfl⟩ | ⟨d, v, rfl⟩
  case inr.inl =>
    rw [exec_rtInstr]
    cases hstk : s.stk with
    | nil => exact .inr ⟨⟨fn, f, rfl⟩, rfl, State.returnTop_empty (by simp [hstk])⟩
    | cons v rest => exact .inl ⟨_, State.returnTop_next.mpr ⟨v, rest, by simp [hstk], rfl⟩⟩
  case inl => exact .inl ⟨_, exec_opInstr fn f s⟩
  case inr.inr.inl => exact .inl ⟨_, rfl⟩
  case inr.inr.inr.inl => exact .inl ⟨_, rfl⟩
  case inr.inr.inr.inr.inl =>
    obtain ⟨taken, h⟩ := exec_condJump c na s
    exact .inl ⟨_, h⟩
  case inr.inr.inr.inr.inr => exact .inl ⟨_, rfl⟩

theorem exec_ne_undefinedBranch (i : Instr) (s : State) : exec i s ≠ .fault .undefinedBranch := by
  rcases exec_next_or_underflow i s with ⟨t, h⟩ | ⟨-, -, h⟩ <;> simp [h]

/-- The core's step is the fault UndefinedBranch on exactly the words that the decoder rejects. -/
theorem coreStep_undefinedBranch_iff {s : State} (hidle : s.intPending = false) :
    coreStep s = .fault .undefinedBranch ↔ decode s.fetch = .rejected .undefinedBranch := by
  refine ⟨fun h => ?_, coreStep_of_rejected hidle⟩
  cases hd : decode s.fetch with
  | instr i => exact absurd (coreStep_of_instr hidle hd ▸ h) (exec_ne_undefinedBranch i s)
  | rejected r => cases r; rfl

/-! ### The return (R24, R162) -/

theorem exec_rtInstr_of_cons (fn : AluFn) (f : OpFields) {s : State} {v : ProgAddr} {rest : List ProgAddr}
    (h : s.stk = v :: rest) : exec (rtInstr fn f) s = .next { multiOp fn f s with pc := v, stk := rest } := by
  rw [exec_rtInstr]
  exact State.returnTop_next.mpr ⟨v, rest, by simp [h], rfl⟩

theorem exec_rtInstr_of_nil (fn : AluFn) (f : OpFields) {s : State} (h : s.stk = []) :
    exec (rtInstr fn f) s = .fault .stackUnderflow := by
  rw [exec_rtInstr]
  exact State.returnTop_empty (by simp [h])

/-! ### The jumps (R281 to R316) -/

theorem nextPc_eq_ofNat (pc : ProgAddr) : nextPc pc = BitVec.ofNat 9 (pc.toNat + 1) := by
  rw [BitVec.ofNat_add, BitVec.ofNat_toNat, BitVec.setWidth_eq]
  rfl

/-- CALL keeps the three most recent addresses under the one it pushes. -/
theorem exec_call (na : ProgAddr) (s : State) :
    exec (.call na) s = .next { s with pc := na, stk := nextPc s.pc :: s.stk.take 3 } := rfl

theorem rqm_iff (s : State) : s.rqm = true ↔ 32768 ≤ s.sr.toNat := by
  have hmsb : s.rqm = s.sr.msb := by rw [BitVec.msb_eq_getLsbD_last]; rfl
  rw [hmsb]
  exact signFlag_iff s.sr

/-- Each conditional jump is taken exactly when the claims' condition of its code holds at its start. -/
theorem exec_condJump_iff (c : Cond) (na : ProgAddr) (s : State) :
    ∃ taken, exec (condJump c na) s = jumpIf taken na s ∧ (taken = true ↔ conditionHolds c s) := by
  cases c
  case jdpl0 => exact ⟨_, rfl, by simp [conditionHolds, BitVec.toNat_eq]⟩
  case jdplf => exact ⟨_, rfl, by simp [conditionHolds, BitVec.toNat_eq]⟩
  case jnrqm => exact ⟨_, rfl, by simp [conditionHolds, ← Bool.not_eq_true, rqm_iff]⟩
  case jrqm => exact ⟨_, rfl, rqm_iff s⟩
  all_goals exact ⟨_, rfl, by simp [conditionHolds]⟩

/-! ### The interrupt entry (R345, R346) -/

theorem State.interruptEntry_eq (s : State) :
    s.interruptEntry =
      { s with pc := 0x100#9, stk := s.pc :: s.stk.take 3, sr := s.sr &&& 0xFF7F#16, intPending := false } := rfl

/-! ### The edges of INT (R343) -/

theorem intRise_of_high {s : State} (h : s.intLevel = true) : intRise s = .refused .turnNotEnabled := by
  simp [intRise, h]

theorem intRise_of_enabled {s : State} (hlow : s.intLevel = false) (hei : s.ei = true) :
    intRise s = .next { s with intLevel := true, intPending := true } := by simp [intRise, hlow, hei]

theorem intRise_of_disabled {s : State} (hlow : s.intLevel = false) (hei : s.ei = false) :
    intRise s = .next { s with intLevel := true } := by simp [intRise, hlow, hei]

theorem intFall_of_low {s : State} (h : s.intLevel = false) : intFall s = .refused .turnNotEnabled := by
  simp [intFall, h]

theorem intFall_of_high {s : State} (h : s.intLevel = true) : intFall s = .next { s with intLevel := false } := by
  simp [intFall, h]

/-! ### A word placed at PC (R20, log 6) -/

theorem decode_of_decodeTableWord {nbits w : Nat} {i : Instr} (h : decodeTableWord nbits w = some i) :
    decode (BitVec.ofNat 23 (w % 2 ^ nbits)) = .instr i := by
  simp only [decodeTableWord] at h
  split at h
  · cases hd : decode (BitVec.ofNat 23 (w % 2 ^ nbits)) with
    | instr j =>
      rw [hd] at h
      cases h
      rfl
    | rejected r =>
      rw [hd] at h
      cases h
  · cases h

theorem State.fetch_withFetchWord {s : State} (h : Memory.wf Config.iromSize s.irom) (nbits w : Nat) :
    (s.withFetchWord nbits w).fetch = BitVec.ofNat 23 (w % 2 ^ nbits) :=
  State.fetch_placeInstruction h _

end Sys2Proof.Machine

namespace Sys2Proof.Proofs

open Sys2Proof.Machine

/-- Settles O4: the core's step faults so on exactly the words that the decoder rejects. -/
theorem onlyUndefinedBranchWordsFault : Obligations.OnlyUndefinedBranchWordsFault := by
  intro s hmoves hidle
  obtain ⟨ts, hstep⟩ := step_of_coreMoves hmoves
  have hiff := coreStep_undefinedBranch_iff (s := { s with turns := ts }) hidle
  rw [hstep, hiff]
  exact decode_rejected_iff s.fetch

/-- Settles O6. -/
theorem stepRunsTheDecodedInstruction : Obligations.StepRunsTheDecodedInstruction := by
  intro s i hi hidle
  constructor
  · intro hturns
    rw [step_of_unlisted hturns]
    exact coreStep_of_instr hidle hi
  · intro rest hturns
    rw [step_of_listed hturns]
    exact coreStep_of_instr (s := { s with turns := rest }) hidle hi

/-- Settles O7: the placed word is the one fetched, and no turn and no interrupt comes before it. -/
theorem placedInstructionRunsNext : Obligations.PlacedInstructionRunsNext := by
  intro s nbits w i hirom htable
  rw [step_of_unlisted rfl]
  refine coreStep_of_instr rfl ?_
  rw [State.fetch_withFetchWord hirom]
  exact decode_of_decodeTableWord htable

/-- Settles O12. -/
theorem onlyAReturnOnAnEmptyStackStops : Obligations.OnlyAReturnOnAnEmptyStackStops := by
  intro i s hstopped
  rcases exec_next_or_underflow i s with ⟨t, hnext⟩ | ⟨hrt, hstk, -⟩
  · rw [hnext] at hstopped
    exact hstopped.elim
  · exact ⟨hrt, hstk⟩

/-- Settles O25. -/
theorem rtOnAnEmptyStackFaults : Obligations.RtOnAnEmptyStackFaults :=
  fun fn f _ hstk => exec_rtInstr_of_nil fn f hstk

/-- Settles O24: OP and RT run the same multi-operation, and only the return writes the stack. -/
theorem rtDoesTheSameAndReturns : Obligations.RtDoesTheSameAndReturns :=
  fun fn f s _ _ hstk => ⟨_, exec_opInstr fn f s, exec_rtInstr_of_cons fn f hstk⟩

/-- Settles O36. -/
theorem jmpWritesOnlyPc : Obligations.JmpWritesOnlyPc := fun _ _ => rfl

/-- Settles O37. -/
theorem callPushesTheReturnAddress : Obligations.CallPushesTheReturnAddress := by
  intro na s
  rw [exec_call, nextPc_eq_ofNat]

/-- Settles O38: CALL drops nothing from at most three addresses, and RT pops what it pushed. -/
theorem returnComesBackAfterTheCall : Obligations.ReturnComesBackAfterTheCall := by
  intro na fn f s t hlen hcall
  rw [exec_call, List.take_of_length_le hlen] at hcall
  cases hcall
  exact ⟨_, exec_rtInstr_of_cons fn f rfl, nextPc_toNat s.pc, rfl⟩

/-- Settles O39. -/
theorem conditionalJumpsTestTheirCondition : Obligations.ConditionalJumpsTestTheirCondition := by
  intro c na s
  obtain ⟨taken, hexec, htaken⟩ := exec_condJump_iff c na s
  rw [hexec, ← htaken]
  cases taken <;> simp [jumpIf, State.jumpTo, nextPc]

/-- Settles O41. -/
theorem pendingInterruptIsTaken : Obligations.PendingInterruptIsTaken := by
  intro s hpending
  constructor
  · intro hturns
    rw [step_of_unlisted hturns, coreStep_of_pending hpending, State.interruptEntry_eq]
  · intro rest hturns
    rw [step_of_listed hturns]
    exact coreStep_of_pending (s := { s with turns := rest }) hpending

/-- Settles O42: the pin's level enables one of the two edges, and EI alone decides whether the rising one is kept. -/
theorem interruptEdgeIsAcceptedOnlyWhileEnabled : Obligations.InterruptEdgeIsAcceptedOnlyWhileEnabled := by
  intro s rest
  constructor <;> intro hturns <;> rw [step_of_listed hturns]
  · exact ⟨fun hhigh => intRise_of_high hhigh, fun hlow hei => intRise_of_enabled (s := { s with turns := rest }) hlow hei,
      fun hlow hei => intRise_of_disabled (s := { s with turns := rest }) hlow hei⟩
  · exact ⟨fun hlow => intFall_of_low hlow, fun hhigh => intFall_of_high (s := { s with turns := rest }) hhigh⟩

end Sys2Proof.Proofs

/-! SUPPORT. What an OP leaves in every register, in the terms of the claims: the bits of SR (R45, R193), the registers
and notes that the move writes, RAM, RP, the accumulators and flags by the ALU's inputs (R160 to R211); and after it the
obligations of OP, settled from these laws. -/

namespace Sys2Proof.Machine

open Sys2Proof.Claims

/-! ### SR, bit by bit (R45, R56, R178, R192, R193) -/

/-- The bits of SR that belong to the program: 14, 13, 11 to 7, 1 and 0. -/
abbrev ProgramBit (i : Nat) : Prop := i = 14 ∨ i = 13 ∨ (7 ≤ i ∧ i ≤ 11) ∨ i = 1 ∨ i = 0

/-- The two masks of a write of SR part the word: each bit comes from the bus or is kept. -/
theorem srMasks_getLsbD (old v : Word) (i : Nat) :
    ((old &&& srKept) ||| (v &&& srWritable)).getLsbD i = if ProgramBit i then v.getLsbD i else old.getLsbD i := by
  by_cases hi : i < 16
  · interval_cases i <;> simp [srKept, srWritable]
  · have hlen : 16 ≤ i := Nat.le_of_not_lt hi
    simp [BitVec.getLsbD_of_ge _ _ hlen]

theorem or_rqmBit_getLsbD (v : Word) (i : Nat) : (v ||| rqmBit).getLsbD i = (decide (i = 15) || v.getLsbD i) := by
  by_cases hi : i < 16
  · interval_cases i <;> simp [rqmBit]
  · have hlen : 16 ≤ i := Nat.le_of_not_lt hi
    have hne : i ≠ 15 := by omega
    simp [BitVec.getLsbD_of_ge _ _ hlen, hne]

/-- A move reaches the program's bits by @SR, and RQM by a transfer to DR without DMA. -/
theorem destination_srBit (d : Dst) (v : Word) (start s : State) (i : Nat) :
    (destination d v start s).sr.getLsbD i
      = if i = 15 then decide ((d = .dr ∧ start.dma = false) ∨ s.rqm = true)
        else if d = .sr ∧ ProgramBit i then v.getLsbD i else s.sr.getLsbD i := by
  by_cases h15 : i = 15
  · subst h15
    calc (destination d v start s).rqm = if d = .dr ∧ start.dma = false then true else s.rqm := destination_rqm ..
      _ = _ := by by_cases hdr : d = .dr ∧ start.dma = false <;> simp [hdr]
  · rw [destination_sr, if_neg h15]
    by_cases hsr : d = .sr
    · rw [if_pos hsr, srMasks_getLsbD]
      simp only [hsr, true_and]
    · by_cases hdr : d = .dr ∧ start.dma = false
      · rw [if_neg hsr, if_pos hdr, or_rqmBit_getLsbD]
        simp [hsr, h15]
      · simp only [hsr, hdr, false_and, if_false]

/-- A source reaches RQM alone, by a transfer from DR without DMA. -/
theorem sourceEffect_srBit_of_ne (r : Src) (start s : State) {i : Nat} (h15 : i ≠ 15) :
    (sourceEffect r start s).sr.getLsbD i = s.sr.getLsbD i := by
  rw [sourceEffect_sr]
  by_cases hdr : r = .dr ∧ start.dma = false
  · rw [if_pos hdr, or_rqmBit_getLsbD]
    simp [h15]
  · rw [if_neg hdr]

theorem multiOp_srBit (fn : AluFn) (f : OpFields) (s : State) (i : Nat) :
    (multiOp fn f s).sr.getLsbD i
      = if i = 15 then decide (((f.src = .dr ∨ f.dst = .dr) ∧ s.dma = false) ∨ s.rqm = true)
        else if f.dst = .sr ∧ ProgramBit i then (busValue f.src s).getLsbD i else s.sr.getLsbD i := by
  by_cases h15 : i = 15
  · subst h15
    calc (multiOp fn f s).rqm = if (f.src = .dr ∨ f.dst = .dr) ∧ s.dma = false then true else s.rqm := multiOp_rqm ..
      _ = _ := by by_cases hdr : (f.src = .dr ∨ f.dst = .dr) ∧ s.dma = false <;> simp [hdr]
  · rw [multiOp_sr, sourceEffect_srBit_of_ne _ _ _ h15, destination_srBit, source_eq_busValue]
    simp only [h15, if_false]

/-- After @SR a program's bit is the bus's, a transfer with DR or none. -/
theorem multiOp_programBit (fn : AluFn) {f : OpFields} (s : State) {i : Nat} (hdst : f.dst = .sr) (hi : ProgramBit i) :
    (multiOp fn f s).sr.getLsbD i = (source f.src s).getLsbD i := by
  have h15 : i ≠ 15 := by omega
  rw [multiOp_srBit, if_neg h15, if_pos ⟨hdst, hi⟩, source_eq_busValue]

/-- A bit of the hardware's other than RQM keeps its value. -/
theorem multiOp_keptBit (fn : AluFn) (f : OpFields) (s : State) {i : Nat} (h15 : i ≠ 15) (hi : ¬ProgramBit i) :
    (multiOp fn f s).sr.getLsbD i = s.sr.getLsbD i := by
  rw [multiOp_srBit, if_neg h15, if_neg fun h => hi h.2]

theorem destination_keptBit (d : Dst) (v : Word) (start s : State) {i : Nat} (h15 : i ≠ 15) (hi : ¬ProgramBit i) :
    (destination d v start s).sr.getLsbD i = s.sr.getLsbD i := by
  rw [destination_srBit, if_neg h15, if_neg fun h => hi h.2]

/-- Words that agree in bits 6 to 2 agree under the mask of the reserved bits (R54). -/
theorem reservedBits_eq {v w : Word} (h : ∀ i, 2 ≤ i → i ≤ 6 → v.getLsbD i = w.getLsbD i) :
    v &&& 0x007C#16 = w &&& 0x007C#16 := by
  apply BitVec.eq_of_getLsbD_eq
  intro i hi
  rw [BitVec.getLsbD_and, BitVec.getLsbD_and]
  by_cases hres : 2 ≤ i ∧ i ≤ 6
  · rw [h i hres.1 hres.2]
  · have hmask : (0x007C#16).getLsbD i = false := by
      interval_cases i <;> simp_all
    simp [hmask]

theorem multiOp_reserved (fn : AluFn) (f : OpFields) (s : State) :
    (multiOp fn f s).sr &&& 0x007C#16 = s.sr &&& 0x007C#16 :=
  reservedBits_eq fun _ _ _ => multiOp_keptBit fn f s (by omega) (by omega)

theorem destination_reserved (d : Dst) (v : Word) (start s : State) :
    (destination d v start s).sr &&& 0x007C#16 = s.sr &&& 0x007C#16 :=
  reservedBits_eq fun _ _ _ => destination_keptBit d v start s (by omega) (by omega)

/-! ### The rest of what the move writes -/

@[simp] theorem multiOp_siack (fn : AluFn) (f : OpFields) (s : State) :
    (multiOp fn f s).siack = if f.src = .sim ∨ f.src = .sil then false else s.siack := by simp [multiOp]

@[simp] theorem multiOp_draws (fn : AluFn) (f : OpFields) (s : State) : (multiOp fn f s).draws = s.draws + 1 := by
  simp [multiOp]

theorem multiOp_ram (fn : AluFn) (f : OpFields) (s : State) :
    (multiOp fn f s).ram = (destination f.dst (source f.src s) s s).ram := by simp [multiOp]

/-- Only @MEM stores, and only at the DP of the instruction's start (R201). -/
theorem multiOp_ramWord (fn : AluFn) (f : OpFields) {s : State} (h : Memory.wf Config.ramSize s.ram) (a : RamAddr) :
    (multiOp fn f s).ramWord a = if f.dst = .mem ∧ a = s.dp then source f.src s else s.ramWord a := by
  rw [← destination_ramWord h f.dst (source f.src s) s a, State.ramWord, State.ramWord, multiOp_ram]

theorem multiOp_siSpoilt_iff (fn : AluFn) (f : OpFields) (s : State) :
    (multiOp fn f s).siSpoilt = true
      ↔ s.siSpoilt = true ∨ (f.dst = .sr ∧ ChangesSicInMidWord (busValue f.src s) s) := by
  rw [← source_eq_busValue, ← destination_siSpoilt_iff f.dst (source f.src s) s s]
  simp [multiOp]

theorem multiOp_soSpoilt_iff (fn : AluFn) (f : OpFields) (s : State) :
    (multiOp fn f s).soSpoilt = true
      ↔ s.soSpoilt = true ∨ (f.dst = .sr ∧ ChangesSocInMidWord (busValue f.src s) s) := by
  rw [← source_eq_busValue, ← destination_soSpoilt_iff f.dst (source f.src s) s s]
  simp [multiOp]

theorem multiOp_xferSpoilt_iff (fn : AluFn) (f : OpFields) (s : State) :
    (multiOp fn f s).xferSpoilt = true
      ↔ s.xferSpoilt = true ∨ (f.dst = .sr ∧ ChangesTransferMode (busValue f.src s) s) := by
  rw [← source_eq_busValue, ← destination_xferSpoilt_iff f.dst (source f.src s) s s]
  simp [multiOp]

/-! ### The ROM pointer (R191, R208, R209) -/

theorem rpStep_toNat (r : RpOp) (rp : RomAddr) :
    (rpStep r rp).toNat = if r = .rpdec then (rp.toNat + 511) % 512 else rp.toNat := by
  cases r with
  | rpnop => simp [rpStep]
  | rpdec =>
    rw [rpStep, BitVec.toNat_sub, Nat.add_comm]
    simp

theorem multiOp_rp_toNat (fn : AluFn) (f : OpFields) (s : State) :
    (multiOp fn f s).rp.toNat = if f.dst = .rp then (busValue f.src s).toNat % 512
      else if f.rpdcr = .rpdec then (s.rp.toNat + 511) % 512 else s.rp.toNat := by
  by_cases h : f.dst = .rp <;> simp [multiOp, h, rpStep_toNat, source_eq_busValue]

/-! ### The ALU's inputs in the terms of the claims (R163 to R168, R231) -/

theorem product_high (k l : Word) :
    (product k l).extractLsb' 16 16 = BitVec.ofInt 16 (2 * k.toInt * l.toInt / 65536) := by
  rw [product, show k.toInt * l.toInt * 2 = 2 * k.toInt * l.toInt by ring]
  generalize 2 * k.toInt * l.toInt = x
  apply BitVec.eq_of_toNat_eq
  rw [BitVec.extractLsb'_toNat, BitVec.toNat_ofInt, BitVec.toNat_ofInt, Nat.shiftRight_eq_div_pow]
  omega

theorem product_low (k l : Word) : (product k l).extractLsb' 0 16 = BitVec.ofInt 16 (2 * k.toInt * l.toInt) := by
  rw [product, show k.toInt * l.toInt * 2 = 2 * k.toInt * l.toInt by ring]
  generalize 2 * k.toInt * l.toInt = x
  apply BitVec.eq_of_toNat_eq
  rw [BitVec.extractLsb'_toNat, BitVec.toNat_ofInt, BitVec.toNat_ofInt, Nat.shiftRight_zero]
  omega

theorem pselect_eq_pInput (f : OpFields) (s : State) : pselect f.psel (source f.src s) s = pInput f s := by
  rw [pInput, ← source_eq_busValue]
  cases f.psel with
  | ram => rfl
  | idb => rfl
  | m => exact product_high s.k s.l
  | n => exact product_low s.k s.l

theorem aluInputs_eq (f : OpFields) (s : State) :
    aluInputs f s
      = ⟨s.acc f.asl, pInput f s, s.flags f.asl, s.carryOther f.asl, Config.indefiniteS1 s.draws⟩ := by
  rw [aluInputs, pselect_eq_pInput]

/-! ### Each accumulator and its flags after an OP (R168, R169, R187, R188) -/

theorem multiOp_acc_eq (fn : AluFn) (f : OpFields) (s : State) (a : Asl) :
    (multiOp fn f s).acc a = if f.dst = moveCode a then busValue f.src s
      else if fn ≠ .nop ∧ f.asl = a then
        (alu fn ⟨s.acc a, pInput f s, s.flags a, s.carryOther a, Config.indefiniteS1 s.draws⟩).r
      else s.acc a := by
  by_cases hdst : f.dst = moveCode a
  · rw [(multiOp_movedTo fn s hdst).1, if_pos hdst, source_eq_busValue]
  · by_cases hasl : f.asl = a
    · subst hasl
      simp [multiOp_acc, aluActive_iff, aluInputs_eq, hdst]
    · rw [(multiOp_untouched fn s hasl hdst).1]
      simp [hdst, hasl]

theorem multiOp_flags_eq (fn : AluFn) (f : OpFields) (s : State) (a : Asl) :
    (multiOp fn f s).flags a = if fn ≠ .nop ∧ f.asl = a ∧ f.dst ≠ moveCode a then
        (alu fn ⟨s.acc a, pInput f s, s.flags a, s.carryOther a, Config.indefiniteS1 s.draws⟩).flags
      else s.flags a := by
  by_cases hasl : f.asl = a
  · subst hasl
    simp [multiOp_flags, aluActive_iff, aluInputs_eq]
  · simp [multiOp_flags, hasl]

theorem aluAdd_r (x : AluIn) : (alu .add x).r = x.q + x.p := by
  apply BitVec.eq_of_toNat_eq
  simp [alu, aluAdd, addWithCarry, carryNat]

end Sys2Proof.Machine

namespace Sys2Proof.Proofs

open Sys2Proof.Machine

/-- Settles O13, by the law of TR after the move and the law of the sources. -/
theorem eachSourceDrivesTheBus : Obligations.EachSourceDrivesTheBus := by
  intro fn f s hdst
  exact ⟨_, exec_opInstr fn f s, by simp [hdst, source_eq_busValue]⟩

/-- Settles O14, register by register by the laws of the move. -/
theorem opLatchesTheBusIntoItsDestination : Obligations.OpLatchesTheBusIntoItsDestination := by
  intro fn f s
  rw [← source_eq_busValue, ← ramWord_highRamAddr, ← ro_lBus, ← bitrev16_eq_reversed]
  exact ⟨_, exec_opInstr fn f s, multiOp_tr .., multiOp_k .., multiOp_l .., multiOp_dr .., multiOp_so ..,
    multiOp_soack .., multiOp_siack ..⟩

/-- Settles O16, by the law of RAM after the move; the ALU's inputs are those of the start. -/
theorem opStoresOnlyAtTheStartingDp : Obligations.OpStoresOnlyAtTheStartingDp := by
  intro fn f s hram
  refine ⟨_, exec_opInstr fn f s, fun a => multiOp_ramWord fn f hram a, ?rewritten, ?added, multiOp_irom .., multiOp_drom ..⟩
  case rewritten =>
    intro hdst hsrc
    rw [State.advance_ramWord, multiOp_ramWord fn f hram, if_pos ⟨hdst, rfl⟩, hsrc, source]
  case added =>
    intro hdst hfn hpsel hasl
    have hacc := (multiOp_computed fn s hasl (by simp [hdst, moveCode])).1
    rw [State.advance_accA, ← State.acc_accA, hacc, hfn, aluAdd_r]
    simp [aluInputs, hasl, hpsel, pselect]

/-- Settles O19, by the laws of SR and DRQ after the multi-operation. -/
theorem opUpdatesTheStatusRegister : Obligations.OpUpdatesTheStatusRegister := by
  intro fn f s
  refine ⟨_, exec_opInstr fn f s, ?sr, ?drq⟩
  case sr =>
    intro i
    rw [State.advance_sr, multiOp_srBit]
    by_cases h15 : i = 15 <;> simp [h15]
  case drq =>
    rw [State.advance_drq, multiOp_drq]
    simp [Bool.decide_or]

/-- Settles O20, from the law of SR's bits: nine are the bus's, the others are kept but for the RQM of a source DR. -/
theorem srWriteReachesOnlyTheProgramBits : Obligations.SrWriteReachesOnlyTheProgramBits := by
  intro fn f s hdst
  have hbit {i : Nat} (hi : ProgramBit i) := multiOp_programBit fn s hdst hi
  refine ⟨_, exec_opInstr fn f s, ?word, hbit (by decide), hbit (by decide), hbit (by decide), hbit (by decide),
    hbit (by decide), hbit (by decide), hbit (by decide), hbit (by decide), hbit (by decide),
    multiOp_keptBit fn f s (by decide) (by decide), ?rqm, multiOp_reserved fn f s⟩
  case word =>
    intro hsrc
    rw [State.advance_sr, multiOp_sr, sourceEffect_sr, if_neg fun h => hsrc h.1, destination_sr, if_pos hdst]
    rfl
  case rqm =>
    intro hsrc
    simp [multiOp_rqm, hsrc, hdst]

/-- Settles O22. -/
theorem opUpdatesTheRomPointer : Obligations.OpUpdatesTheRomPointer :=
  fun fn f s => ⟨_, exec_opInstr fn f s, multiOp_rp_toNat fn f s⟩

/-- Settles O23, field by field by the frame of the multi-operation. -/
theorem opAdvancesAndLeavesTheRest : Obligations.OpAdvancesAndLeavesTheRest := by
  intro fn f s
  refine ⟨_, exec_opInstr fn f s, ?pc, multiOp_stk .., multiOp_irom .., multiOp_drom .., ?ram, multiOp_si ..,
    multiOp_sisr .., multiOp_sicnt .., multiOp_sosr .., multiOp_socnt .., multiOp_sosrBusy .., multiOp_sorq ..,
    multiOp_soPin .., multiOp_soenLevel .., multiOp_soLastBit .., multiOp_intLevel .., multiOp_intPending ..,
    multiOp_draws .., multiOp_turns .., multiOp_dBus .., multiOp_xferDir .., multiOp_siSpoilt_iff ..,
    multiOp_soSpoilt_iff .., multiOp_xferSpoilt_iff ..⟩
  case pc => rw [State.advance_pc, nextPc_toNat, multiOp_pc]
  case ram =>
    intro hdst
    rw [State.advance_ram, multiOp_ram, destination_ram, if_neg hdst]

/-- Settles O26: the two accumulators are one law at two places. -/
theorem opWritesAccumulatorsAndFlags : Obligations.OpWritesAccumulatorsAndFlags :=
  fun fn f s => ⟨_, exec_opInstr fn f s, multiOp_acc_eq fn f s .accA, multiOp_acc_eq fn f s .accB,
    multiOp_flags_eq fn f s .accA, multiOp_flags_eq fn f s .accB⟩

end Sys2Proof.Proofs

/-! SUPPORT. What the ALU gives in integers: an OP's use of the ALU, the additions and subtractions with their flags, the
logical and shift functions, the arithmetic functions as one exact sum and its overflow run, words side by side as 32-bit
numbers (R231 to R257); and after it the obligations of the ALU, settled from these laws. -/

namespace Sys2Proof.Machine

open Sys2Proof.Claims

/-! ### An OP that the move does not go over (R168, R169) -/

theorem notMovedOver_iff (f : OpFields) : NotMovedOver f ↔ f.dst ≠ moveCode f.asl := by
  cases h : f.asl <;> simp [NotMovedOver, moveCode, h]

/-- The accumulator and the flags that the ALU works on, after an OP whose move goes elsewhere. -/
theorem exec_op_computed (fn : AluFn) {f : OpFields} (s : State) (h : NotMovedOver f) :
    ∃ t, exec (opInstr fn f) s = .next t ∧ t.acc f.asl = (alu fn (aluInputs f s)).r
      ∧ t.flags f.asl = (alu fn (aluInputs f s)).flags :=
  ⟨_, exec_opInstr fn f s, multiOp_computed fn s rfl ((notMovedOver_iff f).mp h)⟩

/-! ### Additions and subtractions (R239 to R244, R252, R255) -/

theorem alu_of_additionInputs {fn : AluFn} {f : OpFields} {s : State} {p : Word} {cin : Bool}
    (h : AdditionInputs fn f s p cin) : alu fn (aluInputs f s) = addWithCarry (aluInputs f s) p cin := by
  rw [aluInputs_eq]
  rcases h with ⟨rfl, rfl, rfl⟩ | ⟨rfl, rfl, rfl⟩ | ⟨rfl, rfl, rfl⟩ <;> rfl

theorem alu_of_subtractionInputs {fn : AluFn} {f : OpFields} {s : State} {p : Word} {bin : Bool}
    (h : SubtractionInputs fn f s p bin) : alu fn (aluInputs f s) = subWithBorrow (aluInputs f s) p bin := by
  rw [aluInputs_eq]
  rcases h with ⟨rfl, rfl, rfl⟩ | ⟨rfl, rfl, rfl⟩ | ⟨rfl, rfl, rfl⟩ <;> rfl

/-! ### Words side by side -/

theorem toNat_append_eq {v w : Nat} (x : BitVec v) (y : BitVec w) : (x ++ y).toNat = x.toNat * 2 ^ w + y.toNat := by
  rw [BitVec.toNat_append, ← Nat.shiftLeft_add_eq_or_of_lt y.isLt, Nat.shiftLeft_eq]

/-- A signed word is its unsigned value, less 2^16 from 8000H on. -/
theorem toInt_word (v : Word) : v.toInt = if v.toNat < 32768 then (v.toNat : Int) else v.toNat - 65536 := by
  rw [BitVec.toInt_eq_toNat_cond]
  split <;> split <;> omega

/-! ### The logical and shift functions (R236 to R238, R245 to R251) -/

theorem not_eq_sub (q : Word) : ~~~q = 0xFFFF#16 - q := by
  apply BitVec.eq_of_toNat_eq
  have hq := q.isLt
  rw [BitVec.toNat_not, BitVec.toNat_sub]
  simp
  omega

/-- SHR1 is the signed half, rounded down. -/
theorem shr1_eq (q : Word) : (q.extractLsb' 15 1 ++ q.extractLsb' 1 15 : Word) = BitVec.ofInt 16 (q.toInt / 2) := by
  apply BitVec.eq_of_toNat_eq
  have hq := q.isLt
  rw [toNat_append_eq (q.extractLsb' 15 1) (q.extractLsb' 1 15), BitVec.extractLsb'_toNat, BitVec.extractLsb'_toNat,
    BitVec.toNat_ofInt, toInt_word, Nat.shiftRight_eq_div_pow, Nat.shiftRight_eq_div_pow]
  split <;> omega

/-- A shift left that drops the high bits and fills the low end with a code of its own. -/
theorem shiftLeft_fill {k w : Nat} (q : Word) (low : BitVec w) (h : w + k = 16) :
    (q.extractLsb' 0 k ++ low).toNat = (2 ^ w * q.toNat + low.toNat) % 2 ^ 16 := by
  have hlow : low.toNat < 2 ^ w := low.isLt
  have hpow : 2 ^ 16 = 2 ^ w * 2 ^ k := by rw [← pow_add, h]
  rw [toNat_append_eq, BitVec.extractLsb'_toNat, Nat.shiftRight_zero, hpow, Nat.mod_mul, Nat.mul_add_mod,
    Nat.mod_eq_of_lt hlow, Nat.mul_add_div (Nat.two_pow_pos w), Nat.div_eq_of_lt hlow, Nat.add_zero]
  ring

theorem shl1_eq (q : Word) (c : Bool) :
    (q.extractLsb' 0 15 ++ BitVec.ofBool c : Word) = BitVec.ofNat 16 (2 * q.toNat + bit c) := by
  apply BitVec.eq_of_toNat_eq
  have hcode : (BitVec.ofBool c).toNat = bit c := by cases c <;> rfl
  exact hcode ▸ shiftLeft_fill q (BitVec.ofBool c) rfl

theorem shl2_eq (q : Word) : (q.extractLsb' 0 14 ++ 0b11#2 : Word) = BitVec.ofNat 16 (4 * q.toNat + 3) :=
  BitVec.eq_of_toNat_eq (shiftLeft_fill q 0b11#2 rfl)

theorem shl4_eq (q : Word) : (q.extractLsb' 0 12 ++ 0b1111#4 : Word) = BitVec.ofNat 16 (16 * q.toNat + 15) :=
  BitVec.eq_of_toNat_eq (shiftLeft_fill q 0b1111#4 rfl)

theorem xchg_eq (q : Word) :
    (q.extractLsb' 0 8 ++ q.extractLsb' 8 8 : Word) = BitVec.ofNat 16 (256 * q.toNat + q.toNat / 256) := by
  have hq := q.isLt
  have hhigh : (q.extractLsb' 8 8).toNat = q.toNat / 256 := by
    rw [BitVec.extractLsb'_toNat, Nat.shiftRight_eq_div_pow]
    omega
  apply BitVec.eq_of_toNat_eq
  exact hhigh ▸ shiftLeft_fill q (q.extractLsb' 8 8) rfl

theorem lowestBit_eq (q : Word) : q.getLsbD 0 = decide (q.toNat % 2 = 1) := by
  simp [BitVec.getLsbD, Nat.testBit_zero]

theorem highestBit_eq (q : Word) : q.getLsbD 15 = decide (32768 ≤ q.toNat) := by
  have hmsb : q.getLsbD 15 = signFlag q := by rw [signFlag, BitVec.msb_eq_getLsbD_last]
  rw [hmsb]
  exact Bool.eq_iff_iff.mpr ((signFlag_iff q).trans decide_eq_true_iff.symm)

/-- Each of the nine functions stores the claims' result and carry under the logical flag rule. -/
theorem alu_of_logicalResult {fn : AluFn} {x : AluIn} {r : Word} {c : Bool}
    (h : logicalResult fn x.q x.p x.cOther = some (r, c)) : alu fn x = logical x r c := by
  cases fn
  case cmp => rw [logicalResult, ← not_eq_sub] at h; cases h; rfl
  case shr1 => rw [logicalResult, ← shr1_eq, ← lowestBit_eq] at h; cases h; rfl
  case shl1 => rw [logicalResult, ← shl1_eq, ← highestBit_eq] at h; cases h; rfl
  case shl2 => rw [logicalResult, ← shl2_eq] at h; cases h; rfl
  case shl4 => rw [logicalResult, ← shl4_eq] at h; cases h; rfl
  case xchg => rw [logicalResult, ← xchg_eq] at h; cases h; rfl
  case or => cases h; rfl
  case and => cases h; rfl
  case xor => cases h; rfl
  all_goals exact absurd h (by simp [logicalResult])

/-! ### The arithmetic functions as one exact sum (R239 to R244, R252) -/

theorem addWithCarry_exact (x : AluIn) (p : Word) (cin : Bool) :
    (addWithCarry x p cin).r = BitVec.ofInt 16 (x.q.toInt + p.toInt + carryNat cin) := by
  apply BitVec.eq_of_toNat_eq
  rw [addWithCarry, BitVec.toNat_ofNat, BitVec.toNat_ofInt, toInt_word, toInt_word]
  split <;> split <;> omega

theorem subWithBorrow_exact (x : AluIn) (p : Word) (bin : Bool) :
    (subWithBorrow x p bin).r = BitVec.ofInt 16 (x.q.toInt - p.toInt - carryNat bin) := by
  apply BitVec.eq_of_toNat_eq
  rw [subWithBorrow, BitVec.toNat_ofInt, BitVec.toNat_ofInt, toInt_word, toInt_word]
  split <;> split <;> omega

/-- An arithmetic function stores the exact sum modulo 2^16, and its flags are those of that sum. -/
theorem alu_arithmetic {fn : AluFn} (h : IsArithmetic fn) (x : AluIn) :
    (alu fn x).r = BitVec.ofInt 16 (x.q.toInt + delta fn x.p x.cOther)
      ∧ (alu fn x).flags = flagsArith x.flags (alu fn x).r (alu fn x).flags.c
        (overflows (x.q.toInt + delta fn x.p x.cOther)) := by
  have hadd (p : Word) (cin : Bool) (d : Int) (hd : d = p.toInt + carryNat cin) :
      (addWithCarry x p cin).r = BitVec.ofInt 16 (x.q.toInt + d)
        ∧ (addWithCarry x p cin).flags = flagsArith x.flags (addWithCarry x p cin).r (addWithCarry x p cin).flags.c
          (overflows (x.q.toInt + d)) := by
    rw [hd, ← add_assoc]
    exact ⟨addWithCarry_exact .., addWithCarry_flags ..⟩
  have hsub (p : Word) (bin : Bool) (d : Int) (hd : d = -p.toInt - carryNat bin) :
      (subWithBorrow x p bin).r = BitVec.ofInt 16 (x.q.toInt + d)
        ∧ (subWithBorrow x p bin).flags = flagsArith x.flags (subWithBorrow x p bin).r
          (subWithBorrow x p bin).flags.c (overflows (x.q.toInt + d)) := by
    rw [hd, show x.q.toInt + (-p.toInt - carryNat bin) = x.q.toInt - p.toInt - carryNat bin by ring]
    exact ⟨subWithBorrow_exact .., subWithBorrow_flags ..⟩
  rcases h with rfl | rfl | rfl | rfl | rfl | rfl
  · exact hsub x.p false _ (by simp [delta, carryNat])
  · exact hadd x.p false _ (by simp [delta, carryNat])
  · exact hsub x.p x.cOther _ rfl
  · exact hadd x.p x.cOther _ rfl
  · exact hsub 1#16 false _ (by simp [delta, carryNat])
  · exact hadd 1#16 false _ (by simp [delta, carryNat])

/-- One arithmetic function moves the exact sum by at most 2^15. -/
theorem delta_bounds (fn : AluFn) (p : Word) (c : Bool) : -32768 ≤ delta fn p c ∧ delta fn p c ≤ 32768 := by
  have hlow := p.le_toInt
  have hhigh := p.toInt_le
  have hbit : bit c ≤ 1 := carryNat_le c
  cases fn <;> simp only [delta] <;> omega

/-! ### The overflow run (R253, R257) -/

/-- What the flags say of an exact sum: OV1 that it does not fit in 16 bits, S1 then that it is too large. -/
def FlagsTell (e : Int) (fl : Flags) : Prop :=
  (fl.ov1 = true ↔ OutOfRange e) ∧ (OutOfRange e → (fl.s1 = true ↔ 32767 < e))

/-- The accumulator is the exact sum, or 2^16 away from it on the side that OV1 and S1 name: what a run keeps as long as
the sum stays within three times the range of a word. -/
def Tracks (e : Int) (q : Word) (fl : Flags) : Prop :=
  e = q.toInt + (if fl.ov1 = true then (if fl.s1 = true then 65536 else -65536) else 0)

/-- One operation's exact sum by its size: too small, in range or too large, with what OV0, S0 and the word then are. -/
theorem word_sum_cases {x : Int} (hlow : -65536 ≤ x) (hhigh : x < 65536) :
    (x < -32768 ∧ overflows x = true ∧ signFlag (BitVec.ofInt 16 x) = false
      ∧ (BitVec.ofInt 16 x).toInt = x + 65536)
    ∨ ((-32768 ≤ x ∧ x ≤ 32767) ∧ overflows x = false ∧ (BitVec.ofInt 16 x).toInt = x)
    ∨ (32767 < x ∧ overflows x = true ∧ signFlag (BitVec.ofInt 16 x) = true
      ∧ (BitVec.ofInt 16 x).toInt = x - 65536) := by
  have hword : (BitVec.ofInt 16 x).toNat = _ := BitVec.toNat_ofInt x
  have hov := overflows_iff x
  have hsign := signFlag_iff (BitVec.ofInt 16 x)
  have hint := toInt_word (BitVec.ofInt 16 x)
  rw [hword] at hsign hint
  by_cases hsmall : x < -32768
  · refine .inl ⟨hsmall, hov.mpr (.inl hsmall), ?_, ?_⟩
    · rw [← Bool.not_eq_true, hsign]
      omega
    · rw [hint, if_pos (by omega)]
      omega
  · by_cases hlarge : 32767 < x
    · refine .inr (.inr ⟨hlarge, hov.mpr (.inr hlarge), hsign.mpr (by omega), ?_⟩)
      rw [hint, if_neg (by omega)]
      omega
    · refine .inr (.inl ⟨by omega, ?_, ?_⟩)
      · rw [← Bool.not_eq_true, hov]
        omega
      · rw [hint]
        split <;> omega

/-- One operation from an accumulator that tracks the sum: the new flags tell the new sum. -/
theorem FlagsTell_flagsArith {e d : Int} {q : Word} {fl : Flags} (c : Bool) (h : Tracks e q fl) (hlow : -32768 ≤ d)
    (hhigh : d ≤ 32768) :
    FlagsTell (e + d) (flagsArith fl (BitVec.ofInt 16 (q.toInt + d)) c (overflows (q.toInt + d))) := by
  have hqlow := q.le_toInt
  have hqhigh := q.toInt_le
  simp only [Tracks, FlagsTell, OutOfRange, flagsArith, nextOv1, nextS1] at h ⊢
  rcases word_sum_cases (x := q.toInt + d) (by omega) (by omega) with
      ⟨hx, hov, hsign, -⟩ | ⟨hx, hov, -⟩ | ⟨hx, hov, hsign, -⟩
    <;> by_cases hov1 : fl.ov1 = true <;> by_cases hs1 : fl.s1 = true <;> simp [*] at h ⊢ <;> omega

/-- The new accumulator tracks the new sum too, unless the sum left three times the range of a word. -/
theorem Tracks_flagsArith {e d : Int} {q : Word} {fl : Flags} (c : Bool) (h : Tracks e q fl) (hlow : -32768 ≤ d)
    (hhigh : d ≤ 32768) (hnarrow : -98304 ≤ e + d ∧ e + d ≤ 98303) :
    Tracks (e + d) (BitVec.ofInt 16 (q.toInt + d))
      (flagsArith fl (BitVec.ofInt 16 (q.toInt + d)) c (overflows (q.toInt + d))) := by
  have hqlow := q.le_toInt
  have hqhigh := q.toInt_le
  simp only [Tracks, flagsArith, nextOv1, nextS1] at h ⊢
  rcases word_sum_cases (x := q.toInt + d) (by omega) (by omega) with
      ⟨hx, hov, hsign, hword⟩ | ⟨hx, hov, hword⟩ | ⟨hx, hov, hsign, hword⟩
    <;> by_cases hov1 : fl.ov1 = true <;> by_cases hs1 : fl.s1 = true <;> simp [*] at h ⊢ <;> omega

/-- The accumulator and the sum it tracks differ by a multiple of 2^16. -/
theorem ofInt_of_tracks {e : Int} {q : Word} {fl : Flags} (h : Tracks e q fl) (d : Int) :
    BitVec.ofInt 16 (q.toInt + d) = BitVec.ofInt 16 (e + d) := by
  rw [h]
  apply BitVec.eq_of_toNat_eq
  rw [BitVec.toNat_ofInt, BitVec.toNat_ofInt]
  split_ifs <;> omega

/-- An arithmetic function from an accumulator that tracks the sum. -/
theorem alu_of_tracks {fn : AluFn} {e : Int} {x : AluIn} (harith : IsArithmetic fn) (h : Tracks e x.q x.flags) :
    (alu fn x).r = BitVec.ofInt 16 (e + delta fn x.p x.cOther)
    ∧ FlagsTell (e + delta fn x.p x.cOther) (alu fn x).flags
    ∧ (-98304 ≤ e + delta fn x.p x.cOther ∧ e + delta fn x.p x.cOther ≤ 98303 →
        Tracks (e + delta fn x.p x.cOther) (alu fn x).r (alu fn x).flags) := by
  obtain ⟨hlow, hhigh⟩ := delta_bounds fn x.p x.cOther
  obtain ⟨hr, hflags⟩ := alu_arithmetic harith x
  rw [hflags, hr]
  exact ⟨ofInt_of_tracks h _, FlagsTell_flagsArith _ h hlow hhigh, Tracks_flagsArith _ h hlow hhigh⟩

/-- A run of arithmetic functions from an accumulator that tracks the sum, short enough that the sum stays within three
times the range of a word before its last function. -/
theorem aluRun_tells (ops : List (AluFn × Word × Bool)) {e : Int} {q : Word} {fl : Flags} (h : Tracks e q fl)
    (harith : ∀ o ∈ ops, IsArithmetic o.1) (hne : ops ≠ [])
    (hlow : -98304 ≤ e - 32768 * (ops.length - 1)) (hhigh : e + 32768 * (ops.length - 1) ≤ 98303) :
    (aluRun ops (q, fl)).1 = BitVec.ofInt 16 (e + (ops.map fun o => delta o.1 o.2.1 o.2.2).sum)
    ∧ FlagsTell (e + (ops.map fun o => delta o.1 o.2.1 o.2.2).sum) (aluRun ops (q, fl)).2 := by
  induction ops generalizing e q fl with
  | nil => exact absurd rfl hne
  | cons o rest ih =>
    obtain ⟨fn, p, c⟩ := o
    obtain ⟨hr, htell, htracks⟩ := alu_of_tracks (x := ⟨q, p, fl, c, false⟩) (harith _ (.head _)) h
    dsimp only at hr htell htracks
    obtain ⟨hdlow, hdhigh⟩ := delta_bounds fn p c
    rw [List.map_cons, List.sum_cons, ← add_assoc]
    dsimp only
    by_cases hrest : rest = []
    · subst hrest
      simpa [aluRun] using ⟨hr, htell⟩
    · have hlen : 1 ≤ rest.length := List.length_pos_iff.mpr hrest
      simp only [List.length_cons, Nat.cast_add, Nat.cast_one] at hlow hhigh
      exact ih (htracks (by omega)) (fun o ho => harith o (.tail _ ho)) hrest (by omega) (by omega)

/-! ### 32-bit numbers (R256) -/

theorem toNat_pair (h l : Word) : (h ++ l : BitVec 32).toNat = 65536 * h.toNat + l.toNat := by
  have happend := toNat_append_eq h l
  omega

theorem toInt_pair (h l : Word) : (h ++ l : BitVec 32).toInt = 65536 * h.toInt + l.toNat := by
  have hl := l.isLt
  rw [BitVec.toInt_eq_toNat_cond, toNat_pair, toInt_word]
  split <;> split <;> omega

theorem msb_pair (h l : Word) : (h ++ l : BitVec 32).msb = signFlag h := by
  rw [signFlag, BitVec.msb_append]
  simp

theorem eq_true_iff_carryNat (c : Bool) : c = true ↔ carryNat c = 1 := by cases c <;> simp [carryNat]

/-- The sum of two pairs from the sums of their halves, the low carry taken in by the high half. -/
theorem pair_add {ah al bh bl rh rl : Word} {cl ch : Bool} (hlow : rl.toNat + 65536 * carryNat cl = al.toNat + bl.toNat)
    (hhigh : rh.toNat + 65536 * carryNat ch = ah.toNat + bh.toNat + carryNat cl) :
    (rh ++ rl : BitVec 32) = (ah ++ al : BitVec 32) + (bh ++ bl : BitVec 32)
    ∧ (ch = true ↔ 2 ^ 32 ≤ (ah ++ al : BitVec 32).toNat + (bh ++ bl : BitVec 32).toNat) := by
  have hrl := rl.isLt
  have hrh := rh.isLt
  constructor
  · apply BitVec.eq_of_toNat_eq
    rw [BitVec.toNat_add, toNat_pair, toNat_pair, toNat_pair]
    omega
  · have hal := al.isLt
    rw [toNat_pair, toNat_pair]
    have hcl := carryNat_le cl
    have hch := carryNat_le ch
    rw [eq_true_iff_carryNat]
    omega

/-- The difference of two pairs from the differences of their halves, the low borrow taken in by the high half. -/
theorem pair_sub {ah al bh bl rh rl : Word} {cl ch : Bool} (hlow : rl.toNat + bl.toNat = al.toNat + 65536 * carryNat cl)
    (hhigh : rh.toNat + bh.toNat + carryNat cl = ah.toNat + 65536 * carryNat ch) :
    (rh ++ rl : BitVec 32) = (ah ++ al : BitVec 32) - (bh ++ bl : BitVec 32)
    ∧ (ch = true ↔ (ah ++ al : BitVec 32).toNat < (bh ++ bl : BitVec 32).toNat) := by
  have hrl := rl.isLt
  have hrh := rh.isLt
  have hbl := bl.isLt
  have hbh := bh.isLt
  constructor
  · apply BitVec.eq_of_toNat_eq
    rw [BitVec.toNat_sub, toNat_pair, toNat_pair, toNat_pair]
    omega
  · have hal := al.isLt
    rw [toNat_pair, toNat_pair]
    have hcl := carryNat_le cl
    have hch := carryNat_le ch
    rw [eq_true_iff_carryNat]
    omega

/-! ### ADD with the multiplier's output (R165, R166, R233) -/

/-- ADD to an accumulator that the move does not go to adds the P input of the start. -/
theorem exec_opAdd_acc {f : OpFields} (s : State) (h : NotMovedOver f) :
    (multiOp .add f s).acc f.asl = s.acc f.asl + pInput f s := by
  rw [(multiOp_computed .add s rfl ((notMovedOver_iff f).mp h)).1, aluAdd_r, aluInputs_eq]

end Sys2Proof.Machine

namespace Sys2Proof.Proofs

open Sys2Proof.Machine Sys2Proof.Claims

/-- Settles O28, by the laws of the addition. -/
theorem additionsGiveSumAndFlags : Obligations.AdditionsGiveSumAndFlags := by
  intro fn f s p cin hmove hinputs
  obtain ⟨t, hexec, hacc, hflags⟩ := exec_op_computed fn s hmove
  rw [alu_of_additionInputs hinputs] at hacc hflags
  refine ⟨t, hexec, ?_⟩
  rw [hacc, hflags]
  have hq : (aluInputs f s).q = s.acc f.asl := rfl
  exact ⟨hq ▸ addWithCarry_sum .., zeroFlag_iff _, signFlag_iff _, overflows_iff _⟩

/-- Settles O29, by the laws of the subtraction. -/
theorem subtractionsGiveDifferenceAndFlags : Obligations.SubtractionsGiveDifferenceAndFlags := by
  intro fn f s p bin hmove hinputs
  obtain ⟨t, hexec, hacc, hflags⟩ := exec_op_computed fn s hmove
  rw [alu_of_subtractionInputs hinputs] at hacc hflags
  refine ⟨t, hexec, ?_⟩
  rw [hacc, hflags]
  have hq : (aluInputs f s).q = s.acc f.asl := rfl
  exact ⟨hq ▸ subWithBorrow_difference .., zeroFlag_iff _, signFlag_iff _, overflows_iff _⟩

/-- Settles O30, by the law of the nine functions. -/
theorem logicalAndShiftFunctionsGiveResultAndFlags : Obligations.LogicalAndShiftFunctionsGiveResultAndFlags := by
  intro fn f s r c hmove hresult
  obtain ⟨t, hexec, hacc, hflags⟩ := exec_op_computed fn s hmove
  rw [aluInputs_eq, alu_of_logicalResult hresult] at hacc hflags
  refine ⟨t, hexec, hacc, ?_⟩
  rw [hflags]
  exact ⟨rfl, zeroFlag_iff r, signFlag_iff r, rfl, rfl, rfl⟩

/-- Settles O31: the arithmetic flag rule, by the two values of OV1 before. -/
theorem arithmeticUpdatesTheOverflowRun : Obligations.ArithmeticUpdatesTheOverflowRun := by
  intro fn f s hmove harith
  obtain ⟨t, hexec, -, hflags⟩ := exec_op_computed fn s hmove
  have hold : (aluInputs f s).flags = s.flags f.asl := rfl
  rw [(alu_arithmetic harith (aluInputs f s)).2, hold] at hflags
  refine ⟨t, hexec, fun hov1 => ?_, fun hov1 => ?_⟩ <;> rw [hflags]
  · simp [flagsArith, nextOv1, nextS1, hov1]
  · refine ⟨by simp [flagsArith, nextS1, hov1], fun hov0 => ?_, fun hov0 => ?_⟩
      <;> simp_all [flagsArith, nextOv1]

/-- Settles O32: three operations leave the sum within three times the range before the last one, so the run tracks it;
three additions of 7FFFH and one of 8000H are four that go wrong. -/
theorem threeOperationOverflowGuarantee : Obligations.ThreeOperationOverflowGuarantee := by
  refine ⟨?guarantee, [(.add, 0x7FFF#16, false), (.add, 0x7FFF#16, false), (.add, 0x7FFF#16, false),
    (.add, 0x8000#16, false)], 0x7FFF#16, Flags.zero, rfl, ?arithmetic, rfl, ?outOfRange, ?missed⟩
  case guarantee =>
    intro ops q fl hov1 harith hpos hlen
    have hne : ops ≠ [] := List.length_pos_iff.mp hpos
    have hstart : Tracks q.toInt q fl := by simp [Tracks, hov1]
    have hqlow := q.le_toInt
    have hqhigh := q.toInt_le
    obtain ⟨hr, htell, hside⟩ := aluRun_tells ops hstart harith hne (by omega) (by omega)
    refine ⟨htell, hr, fun hout => ⟨hside hout, fun s hs => ?_⟩⟩
    rw [State.sgn, hs]
    exact if_congr (hside hout) rfl rfl
  case arithmetic => simp [IsArithmetic]
  case outOfRange => exact .inr (by decide)
  case missed => decide

/-- Settles O33: the carry of the low words is the 17th bit that the high words take in. -/
theorem carryChainsGiveThirtyTwoBitArithmetic : Obligations.CarryChainsGiveThirtyTwoBitArithmetic := by
  intro ah al bh bl flh fll c x
  constructor <;> intro lo hi
  · have hlow : lo.r.toNat + 65536 * carryNat lo.flags.c = al.toNat + bl.toNat := addWithCarry_sum ..
    have hhigh : hi.r.toNat + 65536 * carryNat hi.flags.c = ah.toNat + bh.toNat + carryNat lo.flags.c :=
      addWithCarry_sum ..
    have hov : hi.flags.ov0 = true ↔ _ := overflows_iff (ah.toInt + bh.toInt + carryNat lo.flags.c)
    obtain ⟨hsum, hcarry⟩ := pair_add hlow hhigh
    refine ⟨hsum, hcarry, ?_, (msb_pair hi.r lo.r).symm⟩
    rw [hov, toInt_pair, toInt_pair]
    have hrl := lo.r.isLt
    omega
  · have hlow : lo.r.toNat + bl.toNat = al.toNat + 65536 * carryNat lo.flags.c :=
      subWithBorrow_difference ⟨al, bl, fll, c, x⟩ bl false
    have hhigh : hi.r.toNat + bh.toNat + carryNat lo.flags.c = ah.toNat + 65536 * carryNat hi.flags.c :=
      subWithBorrow_difference ..
    have hov : hi.flags.ov0 = true ↔ _ := overflows_iff (ah.toInt - bh.toInt - carryNat lo.flags.c)
    obtain ⟨hdifference, hborrow⟩ := pair_sub hlow hhigh
    refine ⟨hdifference, hborrow, ?_, (msb_pair hi.r lo.r).symm⟩
    rw [hov, toInt_pair, toInt_pair]
    have hrl := lo.r.isLt
    omega

/-- Settles O35: the ALU's inputs are of the start of each of the two instructions. -/
theorem newProductIsSeenByTheNextInstruction : Obligations.NewProductIsSeenByTheNextInstruction := by
  intro f s _ hdst
  have hmove : NotMovedOver f := by rcases hdst with h | h | h | h <;> simp [NotMovedOver, h]
  rw [← source_eq_busValue, ← ramWord_highRamAddr, ← ro_lBus]
  refine ⟨_, exec_opInstr .add f s, multiOp_k .., multiOp_l .., exec_opAdd_acc s hmove, fun g hg => ?_⟩
  have hadd (t : State) : (multiOp .add g t).acc g.asl = t.acc g.asl + pInput g t := exec_opAdd_acc t hg
  constructor <;> intro hpsel <;> refine ⟨_, exec_opInstr .add g _, (hadd _).trans ?_⟩ <;> simp only [pInput, hpsel]

end Sys2Proof.Proofs

/-! SUPPORT. The host's port, said once: which bus cycles reach DR, when a transfer is refused, what a transferred byte
does to the handshake, and the frame of every cycle (R360 to R368); and after it the obligations of the host's port,
settled from these laws. -/

namespace Sys2Proof.Machine

open Sys2Proof.Claims

/-! ### Table 3.1 by its rows (R361, R367) -/

/-- The pins select DR: CS/ and A0 low, or DACK/ low. -/
def SelectsDr (c : BusCycle) : Prop := (c.cs && c.dack) = false ∧ (c.a0 && c.dack) = false

theorem SelectsDr_of_dack {c : BusCycle} (h : c.dack = false) : SelectsDr c := by simp [SelectsDr, h]

theorem SelectsDr_of_accessesDr {c : BusCycle} {s : State} (h : AccessesDr c s) : SelectsDr c := by
  rcases h with ⟨-, hcs, ha0⟩ | ⟨hdack, -⟩
  · simp [SelectsDr, hcs, ha0]
  · exact SelectsDr_of_dack hdack

theorem busOp_idle {c : BusCycle} (h : c.cs = true ∧ c.dack = true ∨ c.wr = true ∧ c.rd = true) : busOp c = .idle := by
  rcases h with ⟨hcs, hdack⟩ | ⟨hwr, hrd⟩
  · simp [busOp, hcs, hdack]
  · cases h : c.cs && c.dack <;> simp [busOp, h, hwr, hrd]

theorem busOp_write {c : BusCycle} (h : SelectsDr c) (hwr : c.wr = false) (hrd : c.rd = true) : busOp c = .writeDr := by
  simp only [busOp, h.1, h.2, hwr, hrd]

theorem busOp_read {c : BusCycle} (h : SelectsDr c) (hwr : c.wr = true) (hrd : c.rd = false) : busOp c = .readDr := by
  simp only [busOp, h.1, h.2, hwr, hrd]

theorem busOp_bothLow {c : BusCycle} (h : c.cs = false ∨ c.dack = false) (hwr : c.wr = false) (hrd : c.rd = false) :
    busOp c = .prohibited := by
  have hsel : (c.cs && c.dack) = false := by rcases h with h | h <;> simp [h]
  simp only [busOp, hsel, hwr, hrd]

/-- The direction of a cycle that reads or writes. -/
def direction (c : BusCycle) : XferDir := if c.wr = true then .hostReads else .hostWrites

/-- What a transfer with DR leaves, by its direction. -/
def transferred (c : BusCycle) (s : State) : State := if c.wr = true then hostReadDr s else hostWriteDr c.data s

/-- A cycle that selects DR and reads or writes is a transfer or its refusal. -/
theorem hostCycle_of_selectsDr {c : BusCycle} (s : State) (h : SelectsDr c) (hne : c.wr ≠ c.rd) :
    hostCycle c s = drTransfer c (direction c) s (transferred c s) := by
  cases hwr : c.wr <;> cases hrd : c.rd
  case false.false => simp [hwr, hrd] at hne
  case false.true => simp [hostCycle, busOp_write h hwr hrd, direction, transferred, hwr]
  case true.false => simp [hostCycle, busOp_read h hwr hrd, direction, transferred, hwr]
  case true.true => simp [hwr, hrd] at hne

/-! ### When a transfer is refused (R368) -/

theorem drRefusal_of_accessesDr {c : BusCycle} {s : State} (d : XferDir) (h : AccessesDr c s) :
    drRefusal c d s = if s.xferSpoilt then some .transferModeChanged
      else if s.drs && s.xferDir.any (· != d) then some .mixedTransfer else none := by
  have hdack : (!c.dack && !s.dma) = false := by
    rcases h with ⟨hdack, -, -⟩ | ⟨-, hdma⟩ <;> simp [*]
  simp [drRefusal, hdack]

/-- A transfer is inside the guarantee: no mode was changed under it, and a second byte goes the way of the first. -/
theorem drRefusal_eq_none {c : BusCycle} {s : State} {d : XferDir} (h : AccessesDr c s) (hspoilt : s.xferSpoilt = false)
    (hdir : s.drs = true → ∀ e, s.xferDir = some e → e = d) : drRefusal c d s = none := by
  have hsame : (s.drs && s.xferDir.any (· != d)) = false := by
    cases hdrs : s.drs with
    | false => rfl
    | true => cases hx : s.xferDir with
      | none => rfl
      | some e => simp [hdir hdrs e hx]
  simp [drRefusal_of_accessesDr d h, hspoilt, hsame]

theorem hostCycle_transfer {c : BusCycle} {s : State} (h : AccessesDr c s) (hne : c.wr ≠ c.rd)
    (hspoilt : s.xferSpoilt = false) (hdir : s.drs = true → ∀ e, s.xferDir = some e → e = direction c) :
    hostCycle c s = .next (transferred c s) := by
  rw [hostCycle_of_selectsDr s (SelectsDr_of_accessesDr h) hne, drTransfer, drRefusal_eq_none h hspoilt hdir]

theorem hostCycle_refused {c : BusCycle} {s : State} {r : Refusal} (h : SelectsDr c) (hne : c.wr ≠ c.rd)
    (hr : drRefusal c (direction c) s = some r) : hostCycle c s = .refused r := by
  rw [hostCycle_of_selectsDr s h hne, drTransfer, hr]

theorem hostCycle_writesDr {s : State} {c : BusCycle} (h : WritesDr c s) (hspoilt : s.xferSpoilt = false)
    (hdir : s.drs = true → ∀ e, s.xferDir = some e → e = .hostWrites) :
    hostCycle c s = .next (hostWriteDr c.data s) := by
  obtain ⟨haccess, hwr, hrd⟩ := h
  rw [hostCycle_transfer haccess (by simp [hwr, hrd]) hspoilt (by simpa [direction, hwr] using hdir)]
  simp [transferred, hwr]

theorem hostCycle_readsDr {s : State} {c : BusCycle} (h : ReadsDr c s) (hspoilt : s.xferSpoilt = false)
    (hdir : s.drs = true → ∀ e, s.xferDir = some e → e = .hostReads) :
    hostCycle c s = .next (hostReadDr s) := by
  obtain ⟨haccess, hwr, hrd⟩ := h
  rw [hostCycle_transfer haccess (by simp [hwr, hrd]) hspoilt (by simpa [direction, hwr] using hdir)]
  simp [transferred, hwr]

/-- Whether a cycle writes DR depends on DMA alone. -/
theorem WritesDr_of_dma {c : BusCycle} {s t : State} (hdma : t.dma = s.dma) (h : WritesDr c s) : WritesDr c t := by
  simpa [WritesDr, AccessesDr, hdma] using h

theorem ReadsDr_of_dma {c : BusCycle} {s t : State} (hdma : t.dma = s.dma) (h : ReadsDr c s) : ReadsDr c t := by
  simpa [ReadsDr, AccessesDr, hdma] using h

/-! ### What a byte leaves alone (R360) -/

/-- A byte moves RQM and DRS, bits 15 and 12 of SR, and no other bit. -/
theorem State.byteDone_sr_masked (s : State) (d : XferDir) :
    (s.byteDone d).sr &&& 0x6FFF#16 = s.sr &&& 0x6FFF#16 := by
  have hfinish (x : State) : x.finishTransfer.sr &&& 0x6FFF#16 = x.sr &&& 0x6FFF#16 := by
    cases hdma : x.dma <;> simp [hdma, rqmBit, BitVec.and_assoc]
  rcases s.byteDone_cases d with ⟨-, h⟩ | ⟨-, -, h⟩ | ⟨-, -, h⟩ <;> rw [h]
  · exact hfinish s
  · rw [State.secondByteDone, hfinish]
    simp [drsBit, BitVec.and_assoc]
  · simp [State.firstByteDone, drsBit, BitVec.and_or_distrib_right]

/-- A byte's handshake writes SR, DRQ and the note of the direction alone. -/
theorem State.byteDone_frame (s : State) (d : XferDir) :
    s.byteDone d = { s with
      sr := (s.byteDone d).sr, drq := (s.byteDone d).drq, xferDir := (s.byteDone d).xferDir } := by
  rcases s.byteDone_cases d with ⟨-, h⟩ | ⟨-, -, h⟩ | ⟨-, -, h⟩ <;> rw [h] <;> rfl

theorem hostWriteDr_dr (b : Byte) (s : State) :
    (hostWriteDr b s).dr = if s.highHalf then b ++ s.dr.extractLsb' 0 8 else s.dr.extractLsb' 8 8 ++ b := by
  rw [hostWriteDr, State.byteDone_frame]

theorem hostReadDr_dBus (s : State) :
    (hostReadDr s).dBus = some (if s.highHalf then s.dr.extractLsb' 8 8 else s.dr.extractLsb' 0 8) := by
  rw [hostReadDr, State.byteDone_frame]

theorem hostReadDr_dr (s : State) : (hostReadDr s).dr = s.dr := by rw [hostReadDr, State.byteDone_frame]

theorem hostWriteDr_turns (b : Byte) (s : State) : (hostWriteDr b s).turns = s.turns := by
  rw [hostWriteDr, State.byteDone_frame]

theorem hostReadDr_turns (s : State) : (hostReadDr s).turns = s.turns := by rw [hostReadDr, State.byteDone_frame]

theorem hostWriteDr_dBus (b : Byte) (s : State) : (hostWriteDr b s).dBus = none := by
  rw [hostWriteDr, State.byteDone_frame]

/-- The host's cycles write DR, RQM, DRS, DRQ and the model's notes of the bus and of the direction, and nothing else. -/
theorem hostCycle_frame {c : BusCycle} {s t : State} (h : hostCycle c s = .next t) :
    t.sr &&& 0x6FFF#16 = s.sr &&& 0x6FFF#16
    ∧ t = { s with sr := t.sr, dr := t.dr, drq := t.drq, dBus := t.dBus, xferDir := t.xferDir } := by
  rcases hostCycle_next h with ⟨-, rfl⟩ | ⟨-, -, rfl⟩ | ⟨-, -, rfl⟩ | ⟨-, rfl⟩
  · exact ⟨rfl, rfl⟩
  · refine ⟨State.byteDone_sr_masked _ _, ?_⟩
    rw [hostWriteDr, State.byteDone_frame]
  · refine ⟨State.byteDone_sr_masked _ _, ?_⟩
    rw [hostReadDr, State.byteDone_frame]
  · exact ⟨rfl, rfl⟩

/-! ### The handshake after a byte (R363, R364) -/

/-- After the first byte of a word: DRS and the note of the direction, and the requests as they were. -/
def FirstByteLeft (d : XferDir) (s t : State) : Prop :=
  t.drs = true ∧ t.rqm = s.rqm ∧ t.drq = s.drq ∧ t.xferDir = some d
    ∧ t.dma = s.dma ∧ t.drc = s.drc ∧ t.xferSpoilt = s.xferSpoilt

/-- After the byte that completes a transfer: DRS 0, RQM fallen when DMA = 0, DRQ when DMA = 1. -/
def LastByteLeft (s t : State) : Prop :=
  t.drs = false ∧ (s.dma = false → t.rqm = false ∧ t.drq = s.drq) ∧ (s.dma = true → t.rqm = s.rqm ∧ t.drq = false)

theorem State.byteDone_first {s : State} (d : XferDir) (hdrc : s.drc = false) (hdrs : s.drs = false) :
    FirstByteLeft d s (s.byteDone d) := by
  have hdone : s.byteDone d = s.firstByteDone d := by simp [State.byteDone, hdrc, hdrs]
  rw [hdone]
  simp [FirstByteLeft, State.firstByteDone, State.drs, State.rqm, State.dma, State.drc, drsBit]

theorem State.finishTransfer_last {s : State} (hdrs : s.drs = false) : LastByteLeft s s.finishTransfer := by
  refine ⟨?_, fun hdma => ?_, fun hdma => ?_⟩
  · cases hdma : s.dma <;> simp_all [State.drs, rqmBit]
  · simp [State.rqm, hdma, rqmBit]
  · simp [State.rqm, hdma]

theorem State.byteDone_eight {s : State} (d : XferDir) (hdrc : s.drc = true) (hdrs : s.drs = false) :
    LastByteLeft s (s.byteDone d) := by
  have hdone : s.byteDone d = s.finishTransfer := by simp [State.byteDone, hdrc]
  rw [hdone]
  exact State.finishTransfer_last hdrs

theorem State.byteDone_second {s : State} (d : XferDir) (hdrc : s.drc = false) (hdrs : s.drs = true) :
    LastByteLeft s (s.byteDone d) := by
  have hdone : s.byteDone d = s.secondByteDone := by simp [State.byteDone, hdrc, hdrs]
  have hdma : State.dma { s with sr := s.sr &&& ~~~drsBit, xferDir := none } = s.dma := by simp [State.dma, drsBit]
  have hrqm : State.rqm { s with sr := s.sr &&& ~~~drsBit, xferDir := none } = s.rqm := by simp [State.rqm, drsBit]
  have hlast := State.finishTransfer_last (s := { s with sr := s.sr &&& ~~~drsBit, xferDir := none })
    (by simp [State.drs, drsBit])
  rw [LastByteLeft, hdma, hrqm] at hlast
  rw [hdone]
  exact hlast

/-! ### The half of DR that the byte is (R361, R363) -/

theorem highHalf_iff (s : State) : s.highHalf = true ↔ s.drc = false ∧ s.drs = true := by simp [State.highHalf]

theorem highHalf_first {s : State} (hdrs : s.drs = false) : s.highHalf = false := by simp [State.highHalf, hdrs]

theorem highHalf_second {s : State} (hdrc : s.drc = false) (hdrs : s.drs = true) : s.highHalf = true := by
  simp [State.highHalf, hdrc, hdrs]

/-- How a byte moves the handshake, by the mode and by which byte it is. -/
def Handshake (d : XferDir) (s t : State) : Prop :=
  (s.drc = false → s.drs = false → FirstByteLeft d s t)
  ∧ (s.drc = false → s.drs = true → LastByteLeft s t)
  ∧ (s.drc = true → s.drs = false → LastByteLeft s t)

theorem State.byteDone_handshake (s : State) (d : XferDir) : Handshake d s (s.byteDone d) :=
  ⟨State.byteDone_first d, State.byteDone_second d, State.byteDone_eight d⟩

theorem hostWriteDr_handshake (b : Byte) (s : State) : Handshake .hostWrites s (hostWriteDr b s) := by
  have h := State.byteDone_handshake
    { s with
      dr := if s.highHalf then b ++ s.dr.extractLsb' 0 8 else s.dr.extractLsb' 8 8 ++ b
      dBus := none } .hostWrites
  exact h

theorem hostReadDr_handshake (s : State) : Handshake .hostReads s (hostReadDr s) := by
  have h := State.byteDone_handshake
    { s with dBus := some (if s.highHalf then s.dr.extractLsb' 8 8 else s.dr.extractLsb' 0 8) } .hostReads
  exact h

/-- The handshake does not look at the order of moves. -/
theorem Handshake_of_turns {d : XferDir} {s t : State} (ts : List Turn) (h : Handshake d { s with turns := ts } t) :
    Handshake d s t := h

/-! ### A step that transfers a byte -/

theorem step_writesDr {s : State} {c : BusCycle} {rest : List Turn} (hturns : s.turns = .bus c :: rest)
    (h : WritesDr c s) (hspoilt : s.xferSpoilt = false)
    (hdir : s.drs = true → ∀ e, s.xferDir = some e → e = .hostWrites) :
    ∃ t, step s = .next t ∧ t.turns = rest ∧ t.dBus = none
      ∧ t.dr = (if s.highHalf then c.data ++ s.dr.extractLsb' 0 8 else s.dr.extractLsb' 8 8 ++ c.data)
      ∧ t.sr &&& 0x6FFF#16 = s.sr &&& 0x6FFF#16 ∧ Handshake .hostWrites s t := by
  refine ⟨hostWriteDr c.data { s with turns := rest }, ?_, hostWriteDr_turns .., hostWriteDr_dBus .., hostWriteDr_dr ..,
    State.byteDone_sr_masked .., Handshake_of_turns rest (hostWriteDr_handshake ..)⟩
  rw [step_of_listed hturns]
  exact hostCycle_writesDr (s := { s with turns := rest }) h hspoilt hdir

theorem step_readsDr {s : State} {c : BusCycle} {rest : List Turn} (hturns : s.turns = .bus c :: rest)
    (h : ReadsDr c s) (hspoilt : s.xferSpoilt = false)
    (hdir : s.drs = true → ∀ e, s.xferDir = some e → e = .hostReads) :
    ∃ t, step s = .next t ∧ t.turns = rest ∧ t.dr = s.dr
      ∧ t.dBus = some (if s.highHalf then s.dr.extractLsb' 8 8 else s.dr.extractLsb' 0 8)
      ∧ t.sr &&& 0x6FFF#16 = s.sr &&& 0x6FFF#16 ∧ Handshake .hostReads s t := by
  refine ⟨hostReadDr { s with turns := rest }, ?_, hostReadDr_turns .., hostReadDr_dr .., hostReadDr_dBus ..,
    State.byteDone_sr_masked .., Handshake_of_turns rest (hostReadDr_handshake ..)⟩
  rw [step_of_listed hturns]
  exact hostCycle_readsDr (s := { s with turns := rest }) h hspoilt hdir

theorem step_bus {s : State} {c : BusCycle} {rest : List Turn} (hturns : s.turns = .bus c :: rest) :
    step s = hostCycle c { s with turns := rest } := step_of_listed hturns

/-! ### Rows of Table 3.1 that transfer nothing, or are refused (R361, R367, R368) -/

theorem step_idle {s : State} {c : BusCycle} {rest : List Turn} (hturns : s.turns = .bus c :: rest)
    (h : busOp c = .idle) : step s = .next { s with turns := rest, dBus := none } := by
  rw [step_bus hturns, hostCycle, h]

theorem step_prohibited {s : State} {c : BusCycle} {rest : List Turn} (hturns : s.turns = .bus c :: rest)
    (h : busOp c = .prohibited) : step s = .refused .prohibitedBusCycle := by
  rw [step_bus hturns, hostCycle, h]

theorem step_refused {s : State} {c : BusCycle} {rest : List Turn} {r : Refusal} (hturns : s.turns = .bus c :: rest)
    (h : SelectsDr c) (hne : c.wr ≠ c.rd) (hr : drRefusal c (direction c) s = some r) : step s = .refused r := by
  rw [step_bus hturns]
  exact hostCycle_refused (s := { s with turns := rest }) h hne hr

/-- In DMA mode DACK/ is CS/ and A0 low, at every level of the other pins. -/
theorem hostCycle_byChipSelect {c : BusCycle} {s : State} (hdack : c.dack = false) (hdma : s.dma = true) :
    hostCycle c s = hostCycle (byChipSelect c) s := by
  have hop : busOp c = busOp (byChipSelect c) := by simp [busOp, byChipSelect, hdack]
  have hrefusal (d : XferDir) : drRefusal c d s = drRefusal (byChipSelect c) d s := by
    simp [drRefusal, byChipSelect, hdma]
  simp only [hostCycle, drTransfer, hop, hrefusal]
  rfl

/-- A direction is one of two. -/
theorem eq_of_ne_of_ne {d e x : XferDir} (hde : d ≠ e) (hx : x ≠ d) : x = e := by
  cases d <;> cases e <;> cases x <;> trivial

theorem sameWay_of_ne {o : Option XferDir} {d e : XferDir} (hde : d ≠ e) (h : o ≠ some d) :
    ∀ x, o = some x → x = e := by
  rintro x rfl
  exact eq_of_ne_of_ne hde fun hx => h (congrArg some hx)

end Sys2Proof.Machine

namespace Sys2Proof.Proofs

open Sys2Proof.Machine Sys2Proof.Claims

/-- Settles O45: the first byte leaves the transfer half done in the host's direction, so the second one completes it. -/
theorem hostWritesASixteenBitWord : Obligations.HostWritesASixteenBitWord := by
  intro s c d rest hc hd hturns hdrc hdrs hspoilt
  obtain ⟨t, hstep, hturns1, -, hdr1, hmask1, hfirst, -⟩ := step_writesDr hturns hc hspoilt (by simp [hdrs])
  obtain ⟨hdrs1, hrqm1, hdrq1, hdir1, hdma1, hdrc1, hspoilt1⟩ := hfirst hdrc hdrs
  rw [highHalf_first hdrs, if_neg (by decide)] at hdr1
  rw [hdrc] at hdrc1
  obtain ⟨u, hstep1, hturns2, -, hdr2, hmask2, -, hlast, -⟩ :=
    step_writesDr hturns1 (WritesDr_of_dma hdma1 hd) (hspoilt1.trans hspoilt) (by simp [hdir1])
  obtain ⟨hdrs2, hprogram, hdma⟩ := hlast hdrc1 hdrs1
  rw [hdma1, hdrq1] at hprogram
  rw [hdma1, hrqm1] at hdma
  rw [highHalf_second hdrc1 hdrs1, hdr1, if_pos rfl, BitVec.extractLsb'_append_eq_right] at hdr2
  exact ⟨t, u, hstep, hstep1, hdr1, hdrs1, hrqm1, hdrq1, hdr2,
    hdrs2, hprogram, hdma, hmask2.trans hmask1, hturns2⟩

/-- Settles O46: as O45, with DR read and not written. -/
theorem hostReadsASixteenBitWord : Obligations.HostReadsASixteenBitWord := by
  intro s c d rest hc hd hturns hdrc hdrs hspoilt
  obtain ⟨t, hstep, hturns1, hdr1, hbus1, hmask1, hfirst, -⟩ := step_readsDr hturns hc hspoilt (by simp [hdrs])
  obtain ⟨hdrs1, hrqm1, hdrq1, hdir1, hdma1, hdrc1, hspoilt1⟩ := hfirst hdrc hdrs
  rw [highHalf_first hdrs] at hbus1
  rw [hdrc] at hdrc1
  obtain ⟨u, hstep1, hturns2, hdr2, hbus2, hmask2, -, hlast, -⟩ :=
    step_readsDr hturns1 (ReadsDr_of_dma hdma1 hd) (hspoilt1.trans hspoilt) (by simp [hdir1])
  obtain ⟨hdrs2, hprogram, hdma⟩ := hlast hdrc1 hdrs1
  rw [hdma1, hdrq1] at hprogram
  rw [hdma1, hrqm1] at hdma
  rw [highHalf_second hdrc1 hdrs1, hdr1] at hbus2
  exact ⟨t, u, hstep, hstep1, hbus1, hdrs1, hrqm1, hdrq1, hbus2, hdr2.trans hdr1, hdrs2, hprogram, hdma,
    hmask2.trans hmask1, hturns2⟩

/-- Settles O47. -/
theorem hostTransfersOneByteInEightBitMode : Obligations.HostTransfersOneByteInEightBitMode := by
  intro s c rest hturns hdrc hdrs hspoilt
  constructor <;> intro hc
  · obtain ⟨t, hstep, -, -, hdr, -, -, -, hlast⟩ := step_writesDr hturns hc hspoilt (by simp [hdrs])
    rw [highHalf_first hdrs] at hdr
    exact ⟨t, hstep, hdr, hlast hdrc hdrs⟩
  · obtain ⟨t, hstep, -, hdr, hbus, -, -, -, hlast⟩ := step_readsDr hturns hc hspoilt (by simp [hdrs])
    rw [highHalf_first hdrs] at hbus
    exact ⟨t, hstep, hbus, hdr, hlast hdrc hdrs⟩

/-- Settles O48. -/
theorem hostReadsTheStatusByte : Obligations.HostReadsTheStatusByte := by
  intro s rest hturns
  refine ⟨s.sr.extractLsb' 8 8, ?_, ?_⟩
  · rw [step_bus hturns]
    rfl
  · simp [State.rqm, State.usf1, State.usf0, State.drs, State.dma, State.drc, State.soc, State.sic]

/-- Settles O49, row by row: the transfers by the law of a transferred byte, the other rows by the table, the refusals by
the law of what is refused. -/
theorem busCyclesFollowTheTable : Obligations.BusCyclesFollowTheTable := by
  intro c s rest hturns
  refine ⟨?idle, ?write, ?read, ?status, ?statusWrite, ?bothLow, ?dack, ?dackOutside, ?spoilt, ?mixed, ?dackWrite,
    ?dackRead⟩
  case idle => exact fun h => step_idle hturns (busOp_idle h)
  case write =>
    rintro ⟨hcs, hdack, ha0, hwr, hrd, hspoilt, hdir⟩
    have hc : WritesDr c s := ⟨.inl ⟨hdack, hcs, ha0⟩, hwr, hrd⟩
    obtain ⟨t, hstep, hturns1, hbus, hdr, -⟩ := step_writesDr hturns hc hspoilt fun hdrs =>
      sameWay_of_ne (by decide) (hdir hdrs)
    exact ⟨t, hstep, hbus, hturns1, hdr.trans (if_congr (highHalf_iff s) rfl rfl)⟩
  case read =>
    rintro ⟨hcs, hdack, ha0, hwr, hrd, hspoilt, hdir⟩
    have hc : ReadsDr c s := ⟨.inl ⟨hdack, hcs, ha0⟩, hwr, hrd⟩
    obtain ⟨t, hstep, hturns1, hdr, hbus, -⟩ := step_readsDr hturns hc hspoilt fun hdrs =>
      sameWay_of_ne (by decide) (hdir hdrs)
    exact ⟨t, hstep, hdr, hturns1, hbus.trans (congrArg some (if_congr (highHalf_iff s) rfl rfl))⟩
  case status =>
    rintro ⟨hcs, hdack, ha0, hwr, hrd⟩
    have hop : busOp c = .readSr := by simp [busOp, hcs, hdack, ha0, hwr, hrd]
    rw [step_bus hturns, hostCycle, hop]
    rfl
  case statusWrite =>
    rintro ⟨hcs, hdack, ha0, hwr, hrd⟩
    exact step_prohibited hturns (by simp [busOp, hcs, hdack, ha0, hwr, hrd])
  case bothLow => exact fun ⟨hlow, hwr, hrd⟩ => step_prohibited hturns (busOp_bothLow hlow hwr hrd)
  case dack =>
    rintro ⟨hdack, hdma⟩
    rw [step_bus hturns, step_bus rfl]
    exact hostCycle_byChipSelect hdack hdma
  case dackOutside =>
    rintro ⟨hdack, hne, hdma⟩
    exact step_refused hturns (SelectsDr_of_dack hdack) hne (by simp [drRefusal, hdack, hdma])
  case spoilt =>
    rintro ⟨haccess, hne, hspoilt⟩
    refine step_refused hturns (SelectsDr_of_accessesDr haccess) hne ?_
    rw [drRefusal_of_accessesDr _ haccess, if_pos hspoilt]
  case mixed =>
    rintro ⟨haccess, hne, hspoilt, hdrs, hdir⟩
    refine step_refused hturns (SelectsDr_of_accessesDr haccess) hne ?_
    have hother : s.xferDir.any (· != direction c) = true := by
      rw [hdir, direction]
      cases c.wr <;> rfl
    simp [drRefusal_of_accessesDr _ haccess, hspoilt, hdrs, hother]
  case dackWrite =>
    rintro ⟨hdack, hwr, hrd, hdma, hdrc, hdrs, hspoilt⟩
    have hc : WritesDr c s := ⟨.inr ⟨hdack, hdma⟩, hwr, hrd⟩
    obtain ⟨t, hstep, -, -, hdr, -, -, -, hlast⟩ := step_writesDr hturns hc hspoilt (by simp [hdrs])
    rw [highHalf_first hdrs] at hdr
    exact ⟨t, hstep, hdr, ((hlast hdrc hdrs).2.2 hdma).2⟩
  case dackRead =>
    rintro ⟨hdack, hwr, hrd, hdma, hdrc, hdrs, hspoilt⟩
    have hc : ReadsDr c s := ⟨.inr ⟨hdack, hdma⟩, hwr, hrd⟩
    obtain ⟨t, hstep, -, -, hbus, -, -, -, hlast⟩ := step_readsDr hturns hc hspoilt (by simp [hdrs])
    rw [highHalf_first hdrs] at hbus
    exact ⟨t, hstep, hbus, ((hlast hdrc hdrs).2.2 hdma).2⟩

/-- Settles O50. -/
theorem hostReachesOnlyThePort : Obligations.HostReachesOnlyThePort :=
  fun _ _ _ h => hostCycle_frame h

end Sys2Proof.Proofs

/-! SUPPORT. The serial ports, said once: one edge of SCK at each port, a run of edges as a fold of the bits into the
input shift register, a run of edges as the bits of the output shift register one after the other (R375 to R390); and
after it the obligations of the serial ports, settled from these laws. -/

namespace Sys2Proof.Machine

open Sys2Proof.Claims

theorem serialLength_eq (eight : Bool) : serialLength eight = if eight = true then 8 else 16 := rfl

/-! ### One bit into the input shift register (R376, R377) -/

/-- A bit enters at bit 0. -/
def shiftIn (v : Word) (b : Bool) : Word := v.extractLsb' 0 15 ++ BitVec.ofBool b

theorem shiftIn_getLsbD (v : Word) (b : Bool) {i : Nat} (hi : i < 16) :
    (shiftIn v b).getLsbD i = if i = 0 then b else v.getLsbD (i - 1) := by
  rw [shiftIn, BitVec.getLsbD_append, BitVec.getLsbD_extractLsb']
  cases i with
  | zero => simp
  | succ n =>
    have hn : n < 15 := by omega
    simp [hn]

theorem shiftIn_eq (v : Word) (b : Bool) : shiftIn v b = (v <<< 1) ||| (if b = true then 1#16 else 0#16) := by
  apply BitVec.eq_of_getLsbD_eq
  intro i hi
  rw [shiftIn_getLsbD v b hi, BitVec.getLsbD_or, BitVec.getLsbD_shiftLeft]
  cases i with
  | zero => cases b <;> simp
  | succ n => cases b <;> simp [hi]

/-- What the port latches into SI of a finished word. -/
theorem latchSi_si (s : State) (w : Word) :
    (s.sic = false → (s.latchSi w).si = w) ∧ (s.sic = true → (s.latchSi w).si.toNat = w.toNat % 256) := by
  constructor <;> intro hsic
  · simp [State.latchSi, hsic]
  · simp [State.latchSi, hsic]
    omega

theorem sckRise_spoilt {b : Bool} {s : State} (h : s.siSpoilt = true) :
    sckRise false b s = .refused .serialInputModeChanged := by simp [sckRise, h]

theorem sckRise_enabled {b : Bool} {s : State} (h : s.siSpoilt = false) :
    sckRise false b s = .next (siBit b s.releasePin) := by simp [sckRise, h]

theorem sckRise_middle {b : Bool} {s : State} (hspoilt : s.siSpoilt = false)
    (hmiddle : s.sicnt + 1 < serialLength s.sic) :
    sckRise false b s = .next { s with
      sisr := shiftIn s.sisr b, sicnt := s.sicnt + 1, soPin := s.soPin || s.soLastBit, soLastBit := false } := by
  rw [sckRise_enabled hspoilt, siBit_middle (s := s.releasePin) hmiddle]
  rfl

theorem sckRise_last {b : Bool} {s : State} (hspoilt : s.siSpoilt = false)
    (hlast : serialLength s.sic ≤ s.sicnt + 1) :
    sckRise false b s = .next { s with
      sisr := shiftIn s.sisr b, sicnt := 0, siack := true, si := (s.latchSi (shiftIn s.sisr b)).si,
      soPin := s.soPin || s.soLastBit, soLastBit := false } := by
  rw [sckRise_enabled hspoilt, siBit_last (s := s.releasePin) hlast]
  rfl

/-! ### A run of steps -/

theorem run_succ {s t : State} (h : step s = .next t) (n : Nat) :
    Host.Core.run Sys2Proof.core (n + 1) s = Host.Core.run Sys2Proof.core n t := by
  have hcore : Sys2Proof.core.step s = .next t := h
  simp only [Host.Core.run, hcore]

/-- `m` steps lead from `s` to `t`: every longer run goes on from there. -/
def Reaches (m : Nat) (s t : State) : Prop :=
  ∀ n, Host.Core.run Sys2Proof.core (m + n) s = Host.Core.run Sys2Proof.core n t

theorem Reaches.run {m : Nat} {s t : State} (h : Reaches m s t) : Host.Core.run Sys2Proof.core m s = .next t := h 0

theorem reaches_of_step {s t : State} (h : step s = .next t) : Reaches 1 s t := fun n => by
  rw [Nat.add_comm, run_succ h]

theorem Reaches.trans {m n : Nat} {s t u : State} (h : Reaches m s t) (h' : Reaches n t u) : Reaches (m + n) s u :=
  fun k => by rw [Nat.add_assoc, h, h']

/-! ### A run of input bits (R376, R377) -/

/-- The bits of a word enter one after the other, and the last one latches the word. -/
theorem reaches_serialIn (bits : List Bool) {s : State} (hturns : s.turns = bits.map (Turn.sckRise false))
    (hspoilt : s.siSpoilt = false) (hne : bits ≠ []) (hlen : s.sicnt + bits.length = serialLength s.sic) :
    ∃ t, Reaches bits.length s t ∧ t.siack = true ∧ t.sicnt = 0 ∧ t.turns = []
      ∧ (s.sic = false → t.si = bits.foldl shiftIn s.sisr)
      ∧ (s.sic = true → t.si.toNat = (bits.foldl shiftIn s.sisr).toNat % 256) := by
  induction bits generalizing s with
  | nil => exact absurd rfl hne
  | cons b rest ih =>
    rw [List.map_cons] at hturns
    rw [List.length_cons, Nat.add_comm rest.length] at *
    by_cases hrest : rest = []
    · subst hrest
      have hlast : serialLength s.sic ≤ s.sicnt + 1 := hlen.symm.le
      have hstep := (step_of_listed hturns).trans (sckRise_last (s := { s with turns := [] }) hspoilt hlast)
      obtain ⟨hsixteen, height⟩ := latchSi_si s (shiftIn s.sisr b)
      exact ⟨_, reaches_of_step hstep, rfl, rfl, rfl, hsixteen, height⟩
    · have hpos : 1 ≤ rest.length := List.length_pos_iff.mpr hrest
      have hmiddle : s.sicnt + 1 < serialLength s.sic := by omega
      have hcount : s.sicnt + 1 + rest.length = serialLength s.sic := by omega
      have hstep := (step_of_listed hturns).trans (sckRise_middle (s := { s with turns := _ }) hspoilt hmiddle)
      obtain ⟨t, hreach, hword⟩ := ih (s := { s with
        turns := rest.map (Turn.sckRise false), sisr := shiftIn s.sisr b, sicnt := s.sicnt + 1,
        soPin := s.soPin || s.soLastBit, soLastBit := false }) rfl hspoilt hrest hcount
      exact ⟨t, (reaches_of_step hstep).trans hreach, hword⟩

theorem foldl_shiftIn_getLsbD (bits : Nat → Bool) (v : Word) (n : Nat) {i : Nat} (hi : i < 16) :
    (((List.range n).map bits).foldl shiftIn v).getLsbD i = if i < n then bits (n - 1 - i) else v.getLsbD (i - n) := by
  induction n generalizing i with
  | zero => simp
  | succ n ih =>
    rw [List.range_succ, List.map_append, List.foldl_append, List.map_singleton, List.foldl_cons, List.foldl_nil,
      shiftIn_getLsbD _ _ hi]
    cases i with
    | zero => simp
    | succ j =>
      rw [if_neg (Nat.succ_ne_zero j), Nat.add_sub_cancel, ih (by omega)]
      have hlast : n - 1 - j = n + 1 - 1 - (j + 1) := by omega
      simp [hlast]

/-- A whole word sent from its highest bit on stands in the low bits as it was. -/
theorem foldl_shiftIn_word {n : Nat} (hn : n ≤ 16) (w : BitVec n) (v : Word) :
    (((List.range n).map fun i => w.getLsbD (n - 1 - i)).foldl shiftIn v).setWidth n = w := by
  apply BitVec.eq_of_getLsbD_eq
  intro i hi
  rw [BitVec.getLsbD_setWidth, foldl_shiftIn_getLsbD _ v n (by omega), if_pos hi]
  have hback : n - 1 - (n - 1 - i) = i := by omega
  simp [hi, hback]

theorem serialInTurns_eq (n : Nat) (bits : Nat → Bool) :
    serialInTurns n bits = ((List.range n).map bits).map (Turn.sckRise false) := by
  rw [serialInTurns, List.map_map]
  rfl

/-! ### One bit out of the output shift register (R385 to R388) -/

theorem soLoad_enabled {s : State} (hack : s.soack = true) (hfree : s.sosrBusy = false) :
    soLoad s = .next { s with sosr := s.so, sosrBusy := true, socnt := 0, soack := false, sorq := true } := by
  simp [soLoad, hack, hfree]

theorem soLoad_refused {s : State} (h : s.soack = false ∨ s.sosrBusy = true) : soLoad s = .refused .turnNotEnabled := by
  rcases h with h | h <;> simp [soLoad, h]

theorem sckFall_sends {s : State} (hsorq : s.sorq = true) (hsoen : s.soenLevel = false) (hspoilt : s.soSpoilt = false) :
    sckFall s = .next (soBit s) := by simp [sckFall, hsorq, hsoen, hspoilt]

theorem sckFall_spoilt {s : State} (hsorq : s.sorq = true) (hsoen : s.soenLevel = false) (hspoilt : s.soSpoilt = true) :
    sckFall s = .refused .serialOutputModeChanged := by simp [sckFall, hsorq, hsoen, hspoilt]

theorem sckFall_idle {s : State} (h : s.sorq = false ∨ s.soenLevel = true) :
    sckFall s = .next { s with soPin := true, soLastBit := false } := by rcases h with h | h <;> simp [sckFall, h]

theorem soBit_reload {s : State} (hlast : serialLength s.soc ≤ s.socnt + 1) (hack : s.soack = true) :
    soBit s = { s with
      soPin := s.sosr.getLsbD s.socnt, socnt := 0, sosr := s.so, soack := false, soLastBit := false } := by
  simp [soBit_last hlast, State.endOfWord, hack]

theorem soBit_drop {s : State} (hlast : serialLength s.soc ≤ s.socnt + 1) (hack : s.soack = false) :
    soBit s = { s with
      soPin := s.sosr.getLsbD s.socnt, socnt := 0, sosrBusy := false, sorq := false, soLastBit := true } := by
  simp [soBit_last hlast, State.endOfWord, hack]

/-- Every bit of a word, the last one too, is the shift register's at the count. -/
theorem soBit_soPin (s : State) : (soBit s).soPin = s.sosr.getLsbD s.socnt := by
  by_cases hmiddle : s.socnt + 1 < serialLength s.soc
  · rw [soBit_middle hmiddle]
  · cases hack : s.soack
    · rw [soBit_drop (Nat.le_of_not_lt hmiddle) hack]
    · rw [soBit_reload (Nat.le_of_not_lt hmiddle) hack]

theorem soBit_turns (s : State) : (soBit s).turns = s.turns := by
  by_cases hmiddle : s.socnt + 1 < serialLength s.soc
  · rw [soBit_middle hmiddle]
  · cases hack : s.soack
    · rw [soBit_drop (Nat.le_of_not_lt hmiddle) hack]
    · rw [soBit_reload (Nat.le_of_not_lt hmiddle) hack]

/-! ### A run of output bits (R386, R389, R390) -/

/-- A word is being sent: SORQ = 1, SOEN/ low, SOC as it was at its start. -/
def Sending (s : State) : Prop := s.sorq = true ∧ s.soenLevel = false ∧ s.soSpoilt = false

/-- A falling edge sends the bit at the count; in the middle of a word it counts it and the next bit can follow. -/
theorem step_sckFall {s : State} {rest : List Turn} (hturns : s.turns = .sckFall :: rest) (h : Sending s) :
    ∃ t, step s = .next t ∧ t.turns = rest ∧ t.soPin = s.sosr.getLsbD s.socnt
      ∧ (s.socnt + 1 < serialLength s.soc →
        Sending t ∧ t.socnt = s.socnt + 1 ∧ t.soc = s.soc ∧ t.sosr = s.sosr ∧ t.soLastBit = false) := by
  obtain ⟨hsorq, hsoen, hspoilt⟩ := id h
  refine ⟨soBit { s with turns := rest }, ?step, soBit_turns _, soBit_soPin _, fun hmiddle => ?middle⟩
  case step => exact (step_of_listed hturns).trans (sckFall_sends (s := { s with turns := rest }) hsorq hsoen hspoilt)
  case middle =>
    rw [soBit_middle (s := { s with turns := rest }) hmiddle]
    exact ⟨h, rfl, rfl, rfl, rfl⟩

/-- A rising edge with the input disabled only lets go of a last bit. -/
theorem step_sckRise_disabled {s : State} {rest : List Turn} (b : Bool) (hturns : s.turns = .sckRise true b :: rest) :
    step s = .next { s with turns := rest, soPin := s.soPin || s.soLastBit, soLastBit := false } :=
  step_of_listed hturns

/-- A falling edge of SCK, and a rising one after it (the input disabled) if so told. -/
def edge (rises : Bool) : List Turn := if rises = true then [.sckFall, .sckRise true false] else [.sckFall]

/-- In the middle of a word an edge, a rising one after it or none, leaves the port at the next bit. -/
theorem reaches_edge (rises : Bool) {s : State} {rest : List Turn} (hturns : s.turns = edge rises ++ rest)
    (h : Sending s) (hmiddle : s.socnt + 1 < serialLength s.soc) :
    ∃ t, Reaches (edge rises).length s t ∧ t.turns = rest ∧ Sending t ∧ t.socnt = s.socnt + 1 ∧ t.soc = s.soc
      ∧ t.sosr = s.sosr := by
  cases rises with
  | false =>
    obtain ⟨t, hstep, hrest, -, hnext⟩ := step_sckFall hturns h
    obtain ⟨hsending, hcount, hsoc, hsosr, -⟩ := hnext hmiddle
    exact ⟨t, reaches_of_step hstep, hrest, hsending, hcount, hsoc, hsosr⟩
  | true =>
    obtain ⟨t, hstep, hrest, -, hnext⟩ := step_sckFall hturns h
    obtain ⟨hsending, hcount, hsoc, hsosr, -⟩ := hnext hmiddle
    exact ⟨_, (reaches_of_step hstep).trans (reaches_of_step (step_sckRise_disabled false hrest)), rfl, hsending,
      hcount, hsoc, hsosr⟩

/-- From any bit of a word on, each falling edge sends the next bit, rising edges between them or none. -/
theorem reaches_edges (es : List Bool) {s : State} {rest : List Turn}
    (hturns : s.turns = (es.map edge).flatten ++ .sckFall :: rest) (h : Sending s)
    (hlen : s.socnt + es.length < serialLength s.soc) :
    ∃ t, Reaches ((es.map edge).flatten.length + 1) s t ∧ t.turns = rest
      ∧ t.soPin = s.sosr.getLsbD (s.socnt + es.length)
      ∧ (s.socnt + es.length + 1 < serialLength s.soc → t.soLastBit = false) := by
  induction es generalizing s with
  | nil =>
    obtain ⟨t, hstep, hrest, hpin, hnext⟩ := step_sckFall hturns h
    exact ⟨t, reaches_of_step hstep, hrest, hpin, fun hmiddle => (hnext hmiddle).2.2.2.2⟩
  | cons rises es ih =>
    rw [List.map_cons, List.flatten_cons, List.append_assoc] at hturns
    rw [List.length_cons] at hlen
    obtain ⟨t, hreach, hrest, hsending, hcount, hsoc, hsosr⟩ := reaches_edge rises hturns h (by omega)
    have hbits : t.socnt + es.length = s.socnt + (es.length + 1) := by omega
    obtain ⟨u, hreach', hword⟩ := ih hrest hsending (by rw [hbits, hsoc]; exact hlen)
    rw [hbits, hsoc, hsosr] at hword
    refine ⟨u, ?_, hword⟩
    rw [List.map_cons, List.flatten_cons, List.length_append, Nat.add_assoc]
    exact hreach.trans hreach'

theorem flatten_falling (k : Nat) : ((List.replicate k false).map edge).flatten = List.replicate k .sckFall := by
  induction k with
  | zero => rfl
  | succ k ih => rw [List.replicate_succ, List.map_cons, List.flatten_cons, ih]; rfl

theorem serialOutTurns_eq (k : Nat) :
    serialOutTurns k = ((List.replicate k true).map edge).flatten ++ [.sckFall] := by
  rw [serialOutTurns, List.map_replicate]
  rfl

theorem length_pairs (k : Nat) : ((List.replicate k true).map edge).flatten.length = 2 * k := by
  simp [edge, mul_comm]

end Sys2Proof.Machine

namespace Sys2Proof.Proofs

open Sys2Proof.Machine Sys2Proof.Claims

/-- Settles O51, by the laws of a bit in the middle of a word and of the last one. -/
theorem serialInputShiftsOneBit : Obligations.SerialInputShiftsOneBit := by
  intro s b rest
  refine ⟨step_sckRise_disabled b, fun hturns hspoilt => ?spoilt, fun hturns hspoilt => ?enabled⟩
  case spoilt => exact (step_of_listed hturns).trans (sckRise_spoilt (s := { s with turns := rest }) hspoilt)
  case enabled =>
    rw [← serialLength_eq, ← shiftIn_eq]
    by_cases hmiddle : s.sicnt + 1 < serialLength s.sic
    · refine ⟨_, (step_of_listed hturns).trans (sckRise_middle (s := { s with turns := rest }) hspoilt hmiddle), rfl,
        rfl, rfl, rfl, fun _ => rfl, fun hlast => absurd hmiddle (Nat.not_lt.mpr hlast)⟩
    · exact ⟨_, (step_of_listed hturns).trans
        (sckRise_last (s := { s with turns := rest }) hspoilt (Nat.le_of_not_lt hmiddle)), rfl, rfl, rfl, rfl,
        fun h => absurd h hmiddle, fun _ => ⟨rfl, latchSi_si s (shiftIn s.sisr b)⟩⟩

/-- Settles O52: the bits of a word, sent from the highest on, fold into the word in SISR, and the last one latches it. -/
theorem serialInputDeliversTheWord : Obligations.SerialInputDeliversTheWord := by
  constructor <;> intro s w hsic hcount hspoilt hturns <;> rw [serialInTurns_eq] at hturns
  · have hlen : s.sicnt + ((List.range 16).map fun i => w.getLsbD (15 - i)).length = serialLength s.sic := by
      simp [hcount, hsic, serialLength]
    obtain ⟨t, hreach, hack, hzero, hdone, hsi, -⟩ := reaches_serialIn _ hturns hspoilt (by simp) hlen
    have hword := foldl_shiftIn_word (le_refl 16) w s.sisr
    rw [BitVec.setWidth_eq] at hword
    exact ⟨t, hreach.run, (hsi hsic).trans hword, hack, hzero, hdone⟩
  · have hlen : s.sicnt + ((List.range 8).map fun i => w.getLsbD (7 - i)).length = serialLength s.sic := by
      simp [hcount, hsic, serialLength]
    obtain ⟨t, hreach, hack, hzero, hdone, -, hsi⟩ := reaches_serialIn _ hturns hspoilt (by simp) hlen
    have hword := congrArg BitVec.toNat (foldl_shiftIn_word (by decide : 8 ≤ 16) w s.sisr)
    rw [BitVec.toNat_setWidth] at hword
    exact ⟨t, hreach.run, (hsi hsic).trans hword, hack, hzero, hdone⟩

/-- Settles O53. -/
theorem serialOutputLoadsTheShiftRegister : Obligations.SerialOutputLoadsTheShiftRegister := by
  intro s rest hturns
  exact ⟨fun hack hfree => (step_of_listed hturns).trans (soLoad_enabled (s := { s with turns := rest }) hack hfree),
    fun h => (step_of_listed hturns).trans (soLoad_refused (s := { s with turns := rest }) h)⟩

/-- Settles O54: a bit in the middle of a word, the two ends of a word, the idle pin and the refusal. -/
theorem serialOutputShiftsOneBit : Obligations.SerialOutputShiftsOneBit := by
  intro s rest hturns
  have hstep := step_of_listed hturns
  refine ⟨fun hsorq hsoen hspoilt => ?sends, fun h => hstep.trans (sckFall_idle (s := { s with turns := rest }) h),
    fun hsorq hsoen hspoilt => hstep.trans (sckFall_spoilt (s := { s with turns := rest }) hsorq hsoen hspoilt)⟩
  case sends =>
    have hsend := hstep.trans (sckFall_sends (s := { s with turns := rest }) hsorq hsoen hspoilt)
    exact ⟨fun h => hsend.trans (congrArg _ (soBit_middle (s := { s with turns := rest }) h)),
      fun h hack => hsend.trans (congrArg _ (soBit_reload (s := { s with turns := rest }) h hack)),
      fun h hack => hsend.trans (congrArg _ (soBit_drop (s := { s with turns := rest }) h hack))⟩

/-- Settles O55: both lists of edges are edges with or without a rising one after each. -/
theorem serialOutputSendsBitsInOrder : Obligations.SerialOutputSendsBitsInOrder := by
  intro s k hsorq hsoen hspoilt hcount hk
  have hsending : Sending s := ⟨hsorq, hsoen, hspoilt⟩
  have hlen (r : Bool) : s.socnt + (List.replicate k r).length < serialLength s.soc := by
    rw [hcount, List.length_replicate, Nat.zero_add]
    exact hk
  refine ⟨fun hturns => ?falling, fun hturns => ?pairs, fun hturns hmiddle => ?risen⟩
  case falling =>
    rw [List.replicate_succ', ← flatten_falling] at hturns
    obtain ⟨t, hreach, hdone, hpin, -⟩ := reaches_edges _ hturns hsending (hlen false)
    rw [flatten_falling, List.length_replicate] at hreach
    rw [hcount, List.length_replicate, Nat.zero_add] at hpin
    exact ⟨t, hreach.run, hpin, hdone⟩
  case pairs =>
    rw [serialOutTurns_eq] at hturns
    obtain ⟨t, hreach, hdone, hpin, -⟩ := reaches_edges _ hturns hsending (hlen true)
    rw [length_pairs] at hreach
    rw [hcount, List.length_replicate, Nat.zero_add] at hpin
    exact ⟨t, hreach.run, hpin, hdone⟩
  case risen =>
    rw [serialOutTurns_eq, List.append_assoc] at hturns
    obtain ⟨t, hreach, hrise, hpin, hheld⟩ := reaches_edges _ hturns hsending (hlen true)
    rw [length_pairs] at hreach
    rw [hcount, List.length_replicate, Nat.zero_add] at hpin hheld
    refine ⟨_, (hreach.trans (reaches_of_step (step_sckRise_disabled false hrise))).run, ?_, rfl⟩
    simp [hheld hmiddle, hpin]

end Sys2Proof.Proofs

/-! SUPPORT. What each agent's move leaves alone and what it keeps true: the hardware's own state under an instruction,
the rest of the machine under a serial turn, the SO pin, and the machine's invariant agent by agent (R20, R48, R54, R70,
R348, R386, R388); and after it the obligations about every step, settled from these laws. -/

namespace Sys2Proof.Machine

open Sys2Proof.Claims

/-! ### What an instruction leaves alone (R48, R352) -/

/-- What belongs to the hardware and no instruction writes. -/
structure HardwareView where
  irom       : Memory 23
  drom       : Memory 13
  drs        : Bool
  reserved   : Word
  si         : Word
  sisr       : Word
  sicnt      : Nat
  sosr       : Word
  socnt      : Nat
  sosrBusy   : Bool
  sorq       : Bool
  soPin      : Bool
  soenLevel  : Bool
  soLastBit  : Bool
  intLevel   : Bool
  intPending : Bool
  xferDir    : Option XferDir

def State.hardware (s : State) : HardwareView where
  irom       := s.irom
  drom       := s.drom
  drs        := s.drs
  reserved   := s.sr &&& 0x007C#16
  si         := s.si
  sisr       := s.sisr
  sicnt      := s.sicnt
  sosr       := s.sosr
  socnt      := s.socnt
  sosrBusy   := s.sosrBusy
  sorq       := s.sorq
  soPin      := s.soPin
  soenLevel  := s.soenLevel
  soLastBit  := s.soLastBit
  intLevel   := s.intLevel
  intPending := s.intPending
  xferDir    := s.xferDir

theorem multiOp_hardware (fn : AluFn) (f : OpFields) (s : State) : (multiOp fn f s).hardware = s.hardware := by
  have hdrs : (multiOp fn f s).drs = s.drs := multiOp_keptBit fn f s (by decide) (by decide)
  simp [State.hardware, hdrs, multiOp_reserved]

theorem destination_hardware (d : Dst) (v : Word) (start s : State) :
    (destination d v start s).hardware = s.hardware := by
  have hdrs : (destination d v start s).drs = s.drs := destination_keptBit d v start s (by decide) (by decide)
  simp only [State.hardware, hdrs, destination_reserved, destination_irom, destination_drom, destination_si,
    destination_sisr, destination_sicnt, destination_sosr, destination_socnt, destination_sosrBusy, destination_sorq,
    destination_soPin, destination_soenLevel, destination_soLastBit, destination_intLevel, destination_intPending,
    destination_xferDir]

theorem exec_hardware {i : Instr} {s t : State} (h : exec i s = .next t) : t.hardware = s.hardware := by
  rcases exec_next h with ⟨fn, f, -, rfl⟩ | ⟨fn, f, v, rest, -, -, rfl⟩ | ⟨target, rfl⟩ | ⟨na, -, rfl⟩ | ⟨d, v, -, rfl⟩
  · exact multiOp_hardware fn f s
  · exact multiOp_hardware fn f s
  · rfl
  · rfl
  · exact destination_hardware d v s s

/-- The requests for the host and the acknowledges of the serial ports move one way only. -/
def RequestsKept (s t : State) : Prop :=
  (s.rqm = true → t.rqm = true) ∧ (s.drq = true → t.drq = true)
    ∧ (t.siack = true → s.siack = true) ∧ (s.soack = true → t.soack = true)

theorem multiOp_requestsKept (fn : AluFn) (f : OpFields) (s : State) : RequestsKept s (multiOp fn f s) := by
  refine ⟨fun h => ?_, fun h => ?_, fun h => ?_, fun h => ?_⟩
  · simp [multiOp_rqm, h]
  · simp [multiOp_drq, h]
  · rw [multiOp_siack] at h
    split at h
    · cases h
    · exact h
  · simp [h]

theorem destination_requestsKept (d : Dst) (v : Word) (s : State) : RequestsKept s (destination d v s s) := by
  refine ⟨fun h => ?_, fun h => ?_, fun h => ?_, fun h => ?_⟩
  · simp [destination_rqm, h]
  · simp [h]
  · rwa [destination_siack] at h
  · simp [h]

theorem exec_requestsKept {i : Instr} {s t : State} (h : exec i s = .next t) : RequestsKept s t := by
  rcases exec_next h with ⟨fn, f, -, rfl⟩ | ⟨fn, f, v, rest, -, -, rfl⟩ | ⟨target, rfl⟩ | ⟨na, -, rfl⟩ | ⟨d, v, -, rfl⟩
  · exact multiOp_requestsKept fn f s
  · exact multiOp_requestsKept fn f s
  · exact ⟨id, id, id, id⟩
  · exact ⟨id, id, id, id⟩
  · exact destination_requestsKept d v s

/-! ### What a serial turn leaves alone (R375 to R388) -/

/-- What is out of the serial ports' reach. -/
structure NonSerialView where
  irom       : Memory 23
  drom       : Memory 13
  ram        : Memory 16
  stk        : List ProgAddr
  sr         : Word
  intPending : Bool
  xferDir    : Option XferDir

def State.nonSerial (s : State) : NonSerialView where
  irom       := s.irom
  drom       := s.drom
  ram        := s.ram
  stk        := s.stk
  sr         := s.sr
  intPending := s.intPending
  xferDir    := s.xferDir

theorem siBit_nonSerial (b : Bool) (s : State) : (siBit b s).nonSerial = s.nonSerial := by
  by_cases h : s.sicnt + 1 < serialLength s.sic
  · rw [siBit_middle h]; rfl
  · rw [siBit_last (Nat.le_of_not_lt h)]; rfl

theorem soBit_nonSerial (s : State) : (soBit s).nonSerial = s.nonSerial := by
  by_cases h : s.socnt + 1 < serialLength s.soc
  · rw [soBit_middle h]; rfl
  · cases hack : s.soack
    · rw [soBit_drop (Nat.le_of_not_lt h) hack]; rfl
    · rw [soBit_reload (Nat.le_of_not_lt h) hack]; rfl

theorem sckRise_nonSerial {sien si : Bool} {s t : State} (h : sckRise sien si s = .next t) :
    t.nonSerial = s.nonSerial := by
  rcases sckRise_next h with ⟨-, rfl⟩ | ⟨-, -, rfl⟩
  · rfl
  · exact siBit_nonSerial si s.releasePin

theorem sckFall_nonSerial {s t : State} (h : sckFall s = .next t) : t.nonSerial = s.nonSerial := by
  rcases sckFall_next h with ⟨-, -, -, rfl⟩ | ⟨-, rfl⟩
  · exact soBit_nonSerial s
  · rfl

theorem soLoad_nonSerial {s t : State} (h : soLoad s = .next t) : t.nonSerial = s.nonSerial := by
  obtain ⟨-, -, rfl⟩ := soLoad_next h
  rfl

/-! ### The ROMs (R20, R28, R106) -/

theorem coreStep_roms {s t : State} (h : coreStep s = .next t) : t.irom = s.irom ∧ t.drom = s.drom := by
  rcases coreStep_next h with ⟨-, rfl⟩ | ⟨-, i, -, hexec⟩
  · exact ⟨rfl, rfl⟩
  · have hview := exec_hardware hexec
    exact ⟨congrArg HardwareView.irom hview, congrArg HardwareView.drom hview⟩

theorem roms_of_nonSerial {s t : State} (h : t.nonSerial = s.nonSerial) : t.irom = s.irom ∧ t.drom = s.drom :=
  ⟨congrArg NonSerialView.irom h, congrArg NonSerialView.drom h⟩

theorem takeTurn_roms {turn : Turn} {s t : State} (h : takeTurn turn s = .next t) :
    t.irom = s.irom ∧ t.drom = s.drom := by
  cases turn with
  | core => exact coreStep_roms h
  | intRise => obtain ⟨-, rfl⟩ := intRise_next h; exact ⟨rfl, rfl⟩
  | intFall => obtain ⟨-, rfl⟩ := intFall_next h; exact ⟨rfl, rfl⟩
  | rst => cases h; exact ⟨rfl, rfl⟩
  | bus c =>
    obtain ⟨-, hframe⟩ := hostCycle_frame h
    rw [hframe]
    exact ⟨rfl, rfl⟩
  | sckRise sien si => exact roms_of_nonSerial (sckRise_nonSerial h)
  | sckFall => exact roms_of_nonSerial (sckFall_nonSerial h)
  | soen level => cases h; exact ⟨rfl, rfl⟩
  | soLoad => exact roms_of_nonSerial (soLoad_nonSerial h)

/-! ### A property that every move keeps, every step keeps -/

theorem step_keeps {P : State → Prop} (hturns : ∀ s ts, P s → P { s with turns := ts })
    (hturn : ∀ turn s t, P s → takeTurn turn s = .next t → P t) {s t : State} (hs : P s) (h : step s = .next t) : P t := by
  rcases step_cases s with ⟨-, hstep⟩ | ⟨turn, rest, -, hstep⟩ <;> rw [hstep] at h
  · exact hturn .core s t hs h
  · exact hturn turn _ t (hturns s rest hs) h

/-! ### The SO pin (R386, R388) -/

/-- The SO pin and what its idle level depends on. -/
def State.pin (s : State) : Bool × Bool × Bool × Bool := (s.soPin, s.soLastBit, s.sorq, s.soenLevel)

theorem coreStep_pin {s t : State} (h : coreStep s = .next t) : t.pin = s.pin := by
  rcases coreStep_next h with ⟨-, rfl⟩ | ⟨-, i, -, hexec⟩
  · rfl
  · have hpin (x : State) :
        x.pin = (x.hardware.soPin, x.hardware.soLastBit, x.hardware.sorq, x.hardware.soenLevel) := rfl
    rw [hpin, hpin, exec_hardware hexec]

theorem hostCycle_pin {c : BusCycle} {s t : State} (h : hostCycle c s = .next t) : t.pin = s.pin := by
  obtain ⟨-, hframe⟩ := hostCycle_frame h
  rw [hframe]
  rfl

theorem PinIdlesHigh_of_pin {s t : State} (h : t.pin = s.pin) (hs : s.PinIdlesHigh) : t.PinIdlesHigh := by
  simp only [State.pin, Prod.mk.injEq] at h
  obtain ⟨hpin, hlast, hsorq, hsoen⟩ := h
  rwa [State.PinIdlesHigh, hpin, hlast, hsorq, hsoen]

/-- A rising SCK edge lets go of a last bit, so the idle pin is high after it. -/
theorem sckRise_pinIdlesHigh {sien si : Bool} {s t : State} (hs : s.PinIdlesHigh) (h : sckRise sien si s = .next t) :
    t.PinIdlesHigh := by
  obtain ⟨hpin, -, hsorq, hsoen⟩ := sckRise_pin h
  intro hidle
  rw [hsoen, hsorq] at hidle
  rw [hpin]
  cases hlast : s.soLastBit with
  | true => simp
  | false => simp [hs (hidle.imp id fun h => ⟨h.1, hlast⟩)]

/-- A falling SCK edge sends a bit, whose last one is held, or leaves the pin high. -/
theorem sckFall_pinIdlesHigh {s t : State} (h : sckFall s = .next t) : t.PinIdlesHigh := by
  obtain ⟨hsoen, ⟨hlow, -, hheld⟩ | ⟨hhigh, -, -⟩⟩ := sckFall_pin h
  · rintro (henabled | ⟨hsorq, hlast⟩)
    · rw [hsoen, hlow] at henabled
      cases henabled
    · rw [hheld, hsorq] at hlast
      cases hlast
  · exact fun _ => hhigh

theorem soenChange_pinIdlesHigh {level : Bool} {s : State} (hs : s.PinIdlesHigh) :
    (soenChange level s).PinIdlesHigh := by
  cases level with
  | true => exact fun _ => rfl
  | false =>
    rintro (hhigh | ⟨hsorq, hlast⟩)
    · cases hhigh
    · exact hs (.inr ⟨hsorq, hlast⟩)

theorem soLoad_pinIdlesHigh {s t : State} (hs : s.PinIdlesHigh) (h : soLoad s = .next t) : t.PinIdlesHigh := by
  obtain ⟨-, -, rfl⟩ := soLoad_next h
  rintro (hhigh | ⟨hsorq, -⟩)
  · exact hs (.inl hhigh)
  · cases hsorq

theorem takeTurn_pinIdlesHigh {turn : Turn} {s t : State} (hs : s.PinIdlesHigh) (h : takeTurn turn s = .next t) :
    t.PinIdlesHigh := by
  cases turn with
  | core => exact PinIdlesHigh_of_pin (coreStep_pin h) hs
  | intRise => obtain ⟨-, rfl⟩ := intRise_next h; exact hs
  | intFall => obtain ⟨-, rfl⟩ := intFall_next h; exact hs
  | rst => cases h; exact fun _ => rfl
  | bus c => exact PinIdlesHigh_of_pin (hostCycle_pin h) hs
  | sckRise sien si => exact sckRise_pinIdlesHigh hs h
  | sckFall => exact sckFall_pinIdlesHigh h
  | soen level => cases h; exact soenChange_pinIdlesHigh hs
  | soLoad => exact soLoad_pinIdlesHigh hs h

/-- Of the agents' moves only an SCK edge, SOEN/ going high and a reset change the pin. -/
theorem takeTurn_soPin {turn : Turn} {s t : State} (h : takeTurn turn s = .next t) :
    t.soPin = s.soPin ∨ turn = .sckFall ∨ (∃ sien b, turn = .sckRise sien b) ∨ turn = .soen true ∨ turn = .rst := by
  cases turn with
  | core => exact .inl (congrArg Prod.fst (coreStep_pin h))
  | intRise => obtain ⟨-, rfl⟩ := intRise_next h; exact .inl rfl
  | intFall => obtain ⟨-, rfl⟩ := intFall_next h; exact .inl rfl
  | rst => exact .inr (.inr (.inr (.inr rfl)))
  | bus c => exact .inl (congrArg Prod.fst (hostCycle_pin h))
  | sckRise sien si => exact .inr (.inr (.inl ⟨sien, si, rfl⟩))
  | sckFall => exact .inr (.inl rfl)
  | soen level =>
    cases level with
    | true => exact .inr (.inr (.inr (.inl rfl)))
    | false => cases h; exact .inl rfl
  | soLoad => obtain ⟨-, -, rfl⟩ := soLoad_next h; exact .inl rfl

/-! ### The invariant, agent by agent -/

theorem serialLength_le (eight : Bool) : serialLength eight ≤ 16 := by cases eight <;> decide

/-- The parts of the invariant that no serial turn reaches. -/
theorem Inv_of_nonSerial {s t : State} (hs : s.Inv) (hview : t.nonSerial = s.nonSerial) (hserial : t.SerialConsistent)
    (hpin : t.PinIdlesHigh) : t.Inv := by
  simp only [State.nonSerial, NonSerialView.mk.injEq] at hview
  obtain ⟨hirom, hdrom, hram, hstk, hsr, hpending, hdir⟩ := hview
  obtain ⟨hmem, hbound, hreserved, hei, -, htransfer, -⟩ := hs
  refine ⟨?_, ?_, ?_, ?_, hserial, ?_, hpin⟩
  · rwa [State.MemoriesWf, hirom, hdrom, hram]
  · rwa [State.StackBounded, hstk]
  · rwa [State.StatusReservedZero, hsr]
  · rwa [State.PendingOnlyEnabled, hpending, State.ei, hsr]
  · rwa [State.TransferConsistent, hdir, State.drs, hsr]

theorem siBit_serialConsistent (b : Bool) {s : State} (hs : s.SerialConsistent) : (siBit b s).SerialConsistent := by
  obtain ⟨hbusy, -, hout, hidle⟩ := hs
  by_cases h : s.sicnt + 1 < serialLength s.sic
  · rw [siBit_middle h]
    exact ⟨hbusy, h.trans_le (serialLength_le _), hout, hidle⟩
  · rw [siBit_last (Nat.le_of_not_lt h)]
    exact ⟨hbusy, Nat.succ_pos 15, hout, hidle⟩

theorem soBit_serialConsistent {s : State} (hs : s.SerialConsistent) (hsorq : s.sorq = true) :
    (soBit s).SerialConsistent := by
  obtain ⟨hbusy, hin, -, -⟩ := hs
  by_cases h : s.socnt + 1 < serialLength s.soc
  · rw [soBit_middle h]
    exact ⟨hbusy, hin, h.trans_le (serialLength_le _), fun hidle => Bool.noConfusion (hsorq.symm.trans hidle)⟩
  · cases hack : s.soack
    · rw [soBit_drop (Nat.le_of_not_lt h) hack]
      exact ⟨rfl, hin, Nat.succ_pos 15, fun _ => rfl⟩
    · rw [soBit_reload (Nat.le_of_not_lt h) hack]
      exact ⟨hbusy, hin, Nat.succ_pos 15, fun _ => rfl⟩

theorem sckRise_inv {sien si : Bool} {s t : State} (hs : s.Inv) (h : sckRise sien si s = .next t) : t.Inv := by
  obtain ⟨-, -, -, -, hserial, -, hpin⟩ := id hs
  refine Inv_of_nonSerial hs (sckRise_nonSerial h) ?_ (sckRise_pinIdlesHigh hpin h)
  rcases sckRise_next h with ⟨-, rfl⟩ | ⟨-, -, rfl⟩
  · exact hserial
  · exact siBit_serialConsistent si (s := s.releasePin) hserial

theorem sckFall_inv {s t : State} (hs : s.Inv) (h : sckFall s = .next t) : t.Inv := by
  obtain ⟨-, -, -, -, hserial, -, -⟩ := id hs
  refine Inv_of_nonSerial hs (sckFall_nonSerial h) ?_ (sckFall_pinIdlesHigh h)
  rcases sckFall_next h with ⟨hsorq, -, -, rfl⟩ | ⟨-, rfl⟩
  · exact soBit_serialConsistent hserial hsorq
  · exact hserial

theorem soLoad_inv {s t : State} (hs : s.Inv) (h : soLoad s = .next t) : t.Inv := by
  obtain ⟨-, -, -, -, ⟨-, hin, -, -⟩, -, hpin⟩ := id hs
  refine Inv_of_nonSerial hs (soLoad_nonSerial h) ?_ (soLoad_pinIdlesHigh hpin h)
  obtain ⟨-, -, rfl⟩ := soLoad_next h
  exact ⟨rfl, hin, Nat.succ_pos 15, fun _ => rfl⟩

theorem soenChange_inv {level : Bool} {s : State} (hs : s.Inv) : (soenChange level s).Inv := by
  obtain ⟨-, -, -, -, hserial, -, hpin⟩ := id hs
  exact Inv_of_nonSerial hs rfl hserial (soenChange_pinIdlesHigh hpin)

theorem intRise_inv {s t : State} (hs : s.Inv) (h : intRise s = .next t) : t.Inv := by
  obtain ⟨hmem, hbound, hreserved, hei, hserial, htransfer, hpin⟩ := hs
  obtain ⟨-, rfl⟩ := intRise_next h
  refine ⟨hmem, hbound, hreserved, fun hpending => ?_, hserial, htransfer, hpin⟩
  rcases Bool.or_eq_true_iff.mp hpending with hwas | hnow
  · exact hei hwas
  · exact hnow

theorem intFall_inv {s t : State} (hs : s.Inv) (h : intFall s = .next t) : t.Inv := by
  obtain ⟨-, rfl⟩ := intFall_next h
  exact hs

theorem rst_inv {s : State} (hs : s.Inv) : (rst s).Inv := by
  obtain ⟨⟨hirom, hram, hdrom⟩, -⟩ := hs
  have hsr : (rst s).sr = 0#16 := rfl
  refine ⟨⟨hirom, State.ramAfterRst_wf hram, hdrom⟩, Nat.zero_le _, ?_, Bool.noConfusion,
    ⟨rfl, Nat.succ_pos 15, Nat.succ_pos 15, fun _ => rfl⟩, ?_, fun _ => rfl⟩
  · rw [State.StatusReservedZero, hsr, BitVec.zero_and]
  · rw [State.TransferConsistent, State.drs, hsr]
    rfl

/-- The reserved bits are among those that a host transfer leaves alone. -/
theorem reserved_of_masked {v w : Word} (h : v &&& 0x6FFF#16 = w &&& 0x6FFF#16) :
    v &&& 0x007C#16 = w &&& 0x007C#16 := by
  have hmask (x : Word) : x &&& 0x007C#16 = (x &&& 0x6FFF#16) &&& 0x007C#16 := by rw [BitVec.and_assoc]; rfl
  rw [hmask v, hmask w, h]

/-- A byte keeps the note of the direction in step with DRS. -/
theorem State.byteDone_transferConsistent {s : State} (d : XferDir) (hs : s.TransferConsistent) :
    (s.byteDone d).TransferConsistent := by
  rcases s.byteDone_cases d with ⟨-, h⟩ | ⟨hdrc, hdrs, h⟩ | ⟨hdrc, hdrs, -⟩
  · have hkept : s.finishTransfer.drs = s.drs := by cases hdma : s.dma <;> simp [State.drs, hdma, rqmBit]
    rw [h, State.TransferConsistent, hkept]
    exact hs
  · obtain ⟨hclear, -⟩ := State.byteDone_second d hdrc hdrs
    rw [State.TransferConsistent, hclear, h]
    rfl
  · obtain ⟨hset, -, -, hdir, -⟩ := State.byteDone_first d hdrc hdrs
    rw [State.TransferConsistent, hset, hdir]
    rfl

theorem hostCycle_transferConsistent {c : BusCycle} {s t : State} (hs : s.TransferConsistent)
    (h : hostCycle c s = .next t) : t.TransferConsistent := by
  rcases hostCycle_next h with ⟨-, rfl⟩ | ⟨-, -, rfl⟩ | ⟨-, -, rfl⟩ | ⟨-, rfl⟩
  · exact hs
  · exact State.byteDone_transferConsistent _ hs
  · exact State.byteDone_transferConsistent _ hs
  · exact hs

theorem hostCycle_inv {c : BusCycle} {s t : State} (hs : s.Inv) (h : hostCycle c s = .next t) : t.Inv := by
  obtain ⟨hmem, hbound, hreserved, hei, hserial, htransfer, hpin⟩ := hs
  have htransfer' := hostCycle_transferConsistent htransfer h
  have hei' : t.ei = s.ei := hostCycle_ei h
  obtain ⟨hmasked, hframe⟩ := hostCycle_frame h
  have hreserved' : t.StatusReservedZero := (reserved_of_masked hmasked).trans hreserved
  have hpending : t.intPending = s.intPending := by rw [hframe]
  refine ⟨?_, ?_, hreserved', fun h => hei'.trans (hei (hpending ▸ h)), ?_, htransfer', ?_⟩ <;> rw [hframe]
  · exact hmem
  · exact hbound
  · exact hserial
  · exact hpin

/-- The interrupt entry clears EI together with the pending interrupt. -/
theorem State.interruptEntry_inv {s : State} (hs : s.Inv) : s.interruptEntry.Inv := by
  obtain ⟨hmem, -, hreserved, -, hserial, htransfer, hpin⟩ := hs
  refine ⟨hmem, State.push_bounded s s.pc, ?_, Bool.noConfusion, hserial, ?_, hpin⟩
  · rw [State.StatusReservedZero, State.interruptEntry_sr, BitVec.and_assoc]
    exact hreserved
  · have hdrs : s.interruptEntry.drs = s.drs := by simp [State.drs, eiBit]
    rw [State.TransferConsistent, hdrs]
    exact htransfer

theorem destination_ramWf {s : State} (h : Memory.wf Config.ramSize s.ram) (d : Dst) (v : Word) (start : State) :
    Memory.wf Config.ramSize (destination d v start s).ram := by
  rw [destination_ram]
  split
  · exact Memory.wf_write h start.dp.isLt v
  · exact h

theorem exec_ramWf {i : Instr} {s t : State} (hs : Memory.wf Config.ramSize s.ram) (h : exec i s = .next t) :
    Memory.wf Config.ramSize t.ram := by
  have hop (fn : AluFn) (f : OpFields) : Memory.wf Config.ramSize (multiOp fn f s).ram := by
    rw [multiOp_ram]
    exact destination_ramWf hs _ _ _
  rcases exec_next h with ⟨fn, f, -, rfl⟩ | ⟨fn, f, v, rest, -, -, rfl⟩ | ⟨target, rfl⟩ | ⟨na, -, rfl⟩ | ⟨d, v, -, rfl⟩
  · exact hop fn f
  · exact hop fn f
  · exact hs
  · exact hs
  · exact destination_ramWf hs d v s

theorem exec_stackBounded {i : Instr} {s t : State} (hs : s.StackBounded) (h : exec i s = .next t) :
    t.StackBounded := by
  rcases exec_next h with ⟨fn, f, -, rfl⟩ | ⟨fn, f, v, rest, -, hstk, rfl⟩ | ⟨target, rfl⟩ | ⟨na, -, rfl⟩ | ⟨d, v, -, rfl⟩
  · rwa [State.StackBounded, State.advance_stk, multiOp_stk]
  · rw [State.StackBounded, hstk] at hs
    exact (Nat.le_succ _).trans hs
  · exact hs
  · exact State.push_bounded s (nextPc s.pc)
  · rwa [State.StackBounded, State.advance_stk, State.nextDraw_stk, destination_stk]

/-- An instruction runs only with no interrupt pending, and reaches RAM, the stack and the program's bits of SR. -/
theorem exec_inv {i : Instr} {s t : State} (hs : s.Inv) (hidle : s.intPending = false) (h : exec i s = .next t) :
    t.Inv := by
  obtain ⟨⟨hirom, hram, hdrom⟩, hbound, hreserved, -, hserial, htransfer, hpin⟩ := hs
  have hram' := exec_ramWf hram h
  have hbound' := exec_stackBounded hbound h
  have hview := exec_hardware h
  simp only [State.hardware, HardwareView.mk.injEq] at hview
  obtain ⟨hi, hd, hdrs, hres, -, -, hsicnt, -, hsocnt, hbusy, hsorq, hsoPin, hsoen, hlast, -, hpending, hdir⟩ := hview
  refine ⟨⟨?_, hram', ?_⟩, hbound', hres.trans hreserved, fun hp => ?_, ?_, ?_, ?_⟩
  · rwa [hi]
  · rwa [hd]
  · rw [hpending, hidle] at hp
    cases hp
  · rwa [State.SerialConsistent, hbusy, hsorq, hsicnt, hsocnt]
  · rwa [State.TransferConsistent, hdir, hdrs]
  · rwa [State.PinIdlesHigh, hsoen, hsorq, hlast, hsoPin]

theorem coreStep_inv {s t : State} (hs : s.Inv) (h : coreStep s = .next t) : t.Inv := by
  rcases coreStep_next h with ⟨-, rfl⟩ | ⟨hidle, i, -, hexec⟩
  · exact State.interruptEntry_inv hs
  · exact exec_inv hs hidle hexec

theorem takeTurn_inv {turn : Turn} {s t : State} (hs : s.Inv) (h : takeTurn turn s = .next t) : t.Inv := by
  cases turn with
  | core => exact coreStep_inv hs h
  | intRise => exact intRise_inv hs h
  | intFall => exact intFall_inv hs h
  | rst => cases h; exact rst_inv hs
  | bus c => exact hostCycle_inv hs h
  | sckRise sien si => exact sckRise_inv hs h
  | sckFall => exact sckFall_inv hs h
  | soen level => cases h; exact soenChange_inv hs
  | soLoad => exact soLoad_inv hs h

end Sys2Proof.Machine

namespace Sys2Proof.Proofs

open Sys2Proof.Machine

/-- Settles O8, agent by agent: the invariant does not look at the order of moves, and every move keeps it. -/
theorem everyStepKeepsTheInvariant : Obligations.EveryStepKeepsTheInvariant :=
  fun _ _ hs h => step_keeps (P := State.Inv) (fun _ _ hs => hs) (fun _ _ _ hs h => takeTurn_inv hs h) hs h

/-- Settles O9. -/
theorem resetStateSatisfiesTheInvariant : Obligations.ResetStateSatisfiesTheInvariant := by
  unfold Obligations.ResetStateSatisfiesTheInvariant
  decide

/-- Settles O11: the ROMs of any one state are kept by every move. -/
theorem noStepWritesARom : Obligations.NoStepWritesARom := by
  intro s t h
  refine step_keeps (P := fun x => x.irom = s.irom ∧ x.drom = s.drom) (fun _ _ hx => hx) ?_ ⟨rfl, rfl⟩ h
  rintro turn x y ⟨hirom, hdrom⟩ hturn
  obtain ⟨hirom', hdrom'⟩ := takeTurn_roms hturn
  exact ⟨hirom'.trans hirom, hdrom'.trans hdrom⟩

/-- Settles O44, by the two frames of an instruction. -/
theorem programCannotWriteHardwareState : Obligations.ProgramCannotWriteHardwareState := by
  intro i s t h
  have hview := exec_hardware h
  simp only [State.hardware, HardwareView.mk.injEq] at hview
  obtain ⟨hirom, hdrom, hdrs, -, hsi, hsisr, hsicnt, hsosr, hsocnt, hbusy, hsorq, hsoPin, hsoen, hlast, hlevel, hpending,
    -⟩ := hview
  exact ⟨hdrs, hsi, hsisr, hsicnt, hsosr, hsocnt, hbusy, hsorq, hsoPin, hsoen, hlast, hlevel, hpending, hirom, hdrom,
    exec_requestsKept h⟩

/-- Settles O57, by the laws of the pin, move by move. -/
theorem serialOutputIdlesHigh : Obligations.SerialOutputIdlesHigh := by
  refine ⟨fun _ => rfl, fun s t hs h => ?kept, fun s level rest hturns => ?soen, fun s t h hne => ?changed⟩
  case kept =>
    exact step_keeps (P := State.PinIdlesHigh) (fun _ _ hs => hs) (fun _ _ _ hs h => takeTurn_pinIdlesHigh hs h) hs h
  case soen =>
    refine ⟨?_, ?_⟩ <;> rintro rfl <;> exact step_of_listed hturns
  case changed =>
    rcases step_cases s with ⟨-, hstep⟩ | ⟨turn, rest, hturns, hstep⟩ <;> rw [hstep] at h
    · exact absurd (congrArg Prod.fst (coreStep_pin h)) hne
    · rcases takeTurn_soPin h with hkept | rfl | ⟨sien, b, rfl⟩ | rfl | rfl
      · exact absurd hkept hne
      · exact ⟨rest, .inl hturns⟩
      · exact ⟨rest, .inr (.inl ⟨sien, b, hturns⟩)⟩
      · exact ⟨rest, .inr (.inr (.inl hturns))⟩
      · exact ⟨rest, .inr (.inr (.inr hturns))⟩

/-- Settles O10, item by item by the laws of RST; RAM by the law of its rewriting. -/
theorem resetLeavesTheListedValues : Obligations.ResetLeavesTheListedValues := by
  refine ⟨fun s rest hturns => ?_, by decide⟩
  refine ⟨rst { s with turns := rest }, step_of_listed hturns, ?_⟩
  have hram (hwf : Memory.wf Config.ramSize s.ram) (a : RamAddr) :=
    State.ramAfterRst_read (s := { s with turns := rest }) hwf a
  and_intros
  all_goals solve_by_elim [rfl]

end Sys2Proof.Proofs

/-! SUPPORT. The parts of a statement as entries in six slots (R141): adding a part fills its slot if it is free, and
different slots do not touch each other. -/

namespace Sys2Proof.Machine

open Sys2Proof.Claims

/-- The slot of a statement that a part fills. -/
def OpPart.slot : OpPart → Fin 6
  | .mov _ _ => 0
  | .alu _ _ _ => 1
  | .dpl _ => 2
  | .dph _ => 3
  | .rp _ => 4
  | .ret => 5

/-- An ALU part has a P input exactly when its function takes one. -/
def OpPart.wellFormed : OpPart → Bool
  | .alu fn _ psel => psel.isSome == takesP fn
  | .mov _ _ | .dpl _ | .dph _ | .rp _ | .ret => true

/-- The part's slot is filled already. -/
def OpParts.taken (s : OpParts) : OpPart → Bool
  | .mov _ _ => s.mov.isSome
  | .alu _ _ _ => s.alu.isSome
  | .dpl _ => s.dpl.isSome
  | .dph _ => s.dph.isSome
  | .rp _ => s.rp.isSome
  | .ret => s.ret

/-- The part written into its slot. -/
def OpParts.fill (s : OpParts) : OpPart → OpParts
  | .mov dst src => { s with mov := some (dst, src) }
  | .alu fn asl psel => { s with alu := some (fn, asl, psel) }
  | .dpl d => { s with dpl := some d }
  | .dph n => { s with dph := some n }
  | .rp r => { s with rp := some r }
  | .ret => { s with ret := true }

theorem OpParts.add_eq (s : OpParts) (p : OpPart) :
    s.add p = if p.wellFormed && !s.taken p then some (s.fill p) else none := by
  cases p with
  | alu fn asl psel =>
    cases h : s.alu.isSome <;> cases hp : psel.isSome == takesP fn <;>
      simp [OpParts.add, OpPart.wellFormed, OpParts.taken, OpParts.fill, h, hp, bne]
  | mov dst src => cases h : s.mov.isSome <;> simp [OpParts.add, OpPart.wellFormed, OpParts.taken, OpParts.fill, h]
  | dpl d => cases h : s.dpl.isSome <;> simp [OpParts.add, OpPart.wellFormed, OpParts.taken, OpParts.fill, h]
  | dph n => cases h : s.dph.isSome <;> simp [OpParts.add, OpPart.wellFormed, OpParts.taken, OpParts.fill, h]
  | rp r => cases h : s.rp.isSome <;> simp [OpParts.add, OpPart.wellFormed, OpParts.taken, OpParts.fill, h]
  | ret => cases h : s.ret <;> simp [OpParts.add, OpPart.wellFormed, OpParts.taken, OpParts.fill, h]

/-- Filling a slot takes that slot and no other. -/
theorem OpParts.taken_fill (s : OpParts) (p q : OpPart) :
    (s.fill q).taken p = (p.slot == q.slot || s.taken p) := by
  cases p <;> cases q <;> rfl

theorem OpParts.fill_comm {p q : OpPart} (s : OpParts) (h : p.slot ≠ q.slot) :
    (s.fill p).fill q = (s.fill q).fill p := by
  cases p <;> cases q <;> simp [OpPart.slot, OpParts.fill] at h ⊢

/-- Two parts in either order: both land in their slots, or one of them is rejected. -/
theorem OpParts.add_comm (s : OpParts) (p q : OpPart) : (s.add p >>= (·.add q)) = (s.add q >>= (·.add p)) := by
  have htwo (p q : OpPart) : (s.add p >>= (·.add q)) =
      if (p.wellFormed && !s.taken p) && (q.wellFormed && !(q.slot == p.slot || s.taken q))
      then some ((s.fill p).fill q) else none := by
    rw [OpParts.add_eq s p]
    cases p.wellFormed && !s.taken p
    · rfl
    · simp [OpParts.add_eq, OpParts.taken_fill]
  rw [htwo p q, htwo q p]
  by_cases hslot : p.slot = q.slot
  · simp [hslot]
  · have hslot' : ¬ q.slot = p.slot := fun h => hslot h.symm
    simp only [beq_eq_false_iff_ne.mpr hslot, beq_eq_false_iff_ne.mpr hslot', Bool.false_or, OpParts.fill_comm s hslot,
      Bool.and_comm]

/-- The parts may be added to a statement in any order. -/
theorem OpParts.foldlM_add_perm {ps qs : List OpPart} (h : ps.Perm qs) (s : OpParts) :
    ps.foldlM OpParts.add s = qs.foldlM OpParts.add s := by
  induction h generalizing s with
  | nil => rfl
  | cons p _ ih => simp only [List.foldlM_cons, ih]
  | swap p q rest =>
    simp only [List.foldlM_cons, ← bind_assoc]
    rw [OpParts.add_comm]
  | trans _ _ ih ih' => exact (ih s).trans (ih' s)

end Sys2Proof.Machine

namespace Sys2Proof.Proofs

open Sys2Proof.Machine

/-- Settles O56, by induction on the permutation. -/
theorem statementPartsMayStandInAnyOrder : Obligations.StatementPartsMayStandInAnyOrder := by
  intro ps qs h
  rw [assembleOp, assembleOp, OpParts.foldlM_add_perm h]

end Sys2Proof.Proofs
